-- ==== Sys2Proof/Word.lean ====
section
/-! DEFINITION. The plain types the model is written in: bytes, ports, colours, handles, keys, named codes. -/

namespace Sys2Proof

/-- One byte of a frame, of the frame store or of a notice record. -/
abbrev Byte := BitVec 8

/-- A physical port, P0 to P3 (00_scope.md, Ports and sessions). -/
inductive Port where
  | p0 | p1 | p2 | p3
  deriving DecidableEq, Repr

/-- The number n of port Pn. -/
def Port.toNat : Port → Nat
  | .p0 => 0
  | .p1 => 1
  | .p2 => 2
  | .p3 => 3

/-- The port of a number; none for a number above 3. -/
def Port.ofNat? : Nat → Option Port
  | 0 => some .p0
  | 1 => some .p1
  | 2 => some .p2
  | 3 => some .p3
  | _ => none

/-- The four ports, lowest first. -/
def Port.all : List Port := [.p0, .p1, .p2, .p3]

/-- One value for each port. -/
structure PerPort (α : Type) where
  p0 : α
  p1 : α
  p2 : α
  p3 : α
  deriving DecidableEq, Repr

/-- The value held for a port. -/
def PerPort.get {α : Type} (v : PerPort α) : Port → α
  | .p0 => v.p0
  | .p1 => v.p1
  | .p2 => v.p2
  | .p3 => v.p3

/-- Replace the value held for a port. -/
def PerPort.set {α : Type} (v : PerPort α) (p : Port) (x : α) : PerPort α :=
  match p with
  | .p0 => { v with p0 := x }
  | .p1 => { v with p1 := x }
  | .p2 => { v with p2 := x }
  | .p3 => { v with p3 := x }

/-- The same value for every port. -/
def PerPort.every {α : Type} (x : α) : PerPort α := ⟨x, x, x, x⟩

/-- Apply one function at every port. -/
def PerPort.map {α β : Type} (f : α → β) (v : PerPort α) : PerPort β :=
  ⟨f v.p0, f v.p1, f v.p2, f v.p3⟩

/-- A colour: three 6-bit components (00_scope.md, Colours). -/
structure Colour where
  r : BitVec 6
  g : BitVec 6
  b : BitVec 6
  deriving DecidableEq, Repr

/-- The colour 0,0,0. -/
def Colour.black : Colour := ⟨0#6, 0#6, 0#6⟩

/-- A band key: owner port and band number (R4). -/
structure BandKey where
  owner : Port
  number : Fin 8
  deriving DecidableEq, Repr

/-- A surface handle: table index and generation (R50). -/
structure Handle where
  index : Fin 32
  gen : Byte
  deriving DecidableEq, Repr

/-- The depth of a surface in bits per pixel (R49). -/
inductive Depth where
  | d1 | d2 | d4 | d8 | d16
  deriving DecidableEq, Repr

/-- Bits per pixel. -/
def Depth.bits : Depth → Nat
  | .d1 => 1
  | .d2 => 2
  | .d4 => 4
  | .d8 => 8
  | .d16 => 16

/-- A depth from its number of bits (R54, check 1). -/
def Depth.ofNat? : Nat → Option Depth
  | 1 => some .d1
  | 2 => some .d2
  | 4 => some .d4
  | 8 => some .d8
  | 16 => some .d16
  | _ => none

/-- The five panel timing parameters (R10). -/
structure Timing where
  hdw : Nat
  hnd : Nat
  vdl : Nat
  vnd : Nat
  divider : Nat
  deriving DecidableEq, Repr

/-- The request kinds of R163 that a port link hands inward, and PORT_RESET, which it acts on itself. -/
inductive Kind where
  | identify | openSession | closeSession | portReset | deviceReset
  | noticeRead | noticeSubscribe
  | surfAlloc | surfFree | surfInfo | pixWrite | pixRead
  | palGrant | palRelease | palSeek | palWrite | palRead
  | edit | submit | recall | abandon | touch
  | jobFill | jobCopy | jobCancel | vote
  | supQuota | supInhibit | supPowerTimes | supEvictSession
  deriving DecidableEq, Repr

/-- The reply statuses of R160. -/
inductive Status where
  | ok | pending | noReply | badFrame | badKind | noSession | staleSession | notSupervisor
  | sessionOpen | busy | range | full | empty | noticeUnread | tooLate | none
  | badGeometry | tableFull | quota | noSpace | noSurface | inUse | held | noGrant
  | duplicate | noJob
  deriving DecidableEq, Repr

/-- The causes of a BAD_FRAME reply (R150, R160). -/
inductive FrameCause where
  | short | length | crc
  deriving DecidableEq, Repr

/-- The reasons of a rejected transaction (R35, R160). -/
inductive Reason where
  | noBand | noSurface | notOwner | panelBounds | outOfRegion | overlap
  | viewport | panAlign | palette | bandLimit | range
  deriving DecidableEq, Repr

/-- The states of the power sequencer (R134). -/
inductive PowerState where
  | dark | logicLead | lit | logicHeld | logicTail
  deriving DecidableEq, Repr

end Sys2Proof
end

