-- ==== Sys2Proof/Config.lean ====
section
/-! DEFINITION. What the part fixes, and the free values: what the manual leaves open and nothing in the model decides. -/

namespace Sys2Proof

/-- Bytes in one block of the frame store (R48). -/
def Config.blockBytes : Nat := 2048

/-- Blocks in the frame store (R48). -/
def Config.blocks : Nat := 256

/-- Bytes in the frame store (R48). -/
def Config.storeBytes : Nat := 524288

/-- The part code that IDENTIFY reports (R158). -/
def Config.partCode : Nat := 0x0A41

/-- The revision that IDENTIFY reports (R158). -/
def Config.revision : Nat := 1

/-- The largest payload of a request frame (R159). -/
def Config.maxRequestPayload : Nat := 261

/-- The lead byte of a fetch window (R147). -/
def Config.fetchLead : Byte := 0x5A#8

/-- Edits a staging area holds at most (R18). -/
def Config.maxEdits : Nat := 8

/-- Non-outcome notices a queue holds at most (R179). -/
def Config.maxOtherNotices : Nat := 15

/-- Jobs the copy engine holds at most, in all and for one port (R89). -/
def Config.maxJobs : Nat := 8
def Config.maxJobsPerPort : Nat := 4

/-- Bands in the active layout at most, in all and for one port (R6). -/
def Config.maxBands : Nat := 16
def Config.maxBandsPerPort : Nat := 8

/-- The quota of every port after power-on and DEVICE_RESET (R53). -/
def Config.defaultQuota : Nat := 64

/-- The lead and tail counts after power-on and DEVICE_RESET (R134, R146). -/
def Config.defaultLead : Nat := 2
def Config.defaultTail : Nat := 60

/-- The timing parameters that PRESET[1:0] selects (R12). -/
def Config.presetTiming (preset : Fin 4) : Timing :=
  match preset with
  | 0 => { hdw := 320, hnd := 64, vdl := 240, vnd := 16, divider := 4 }
  | 1 => { hdw := 480, hnd := 48, vdl := 272, vnd := 12, divider := 2 }
  | 2 => { hdw := 640, hnd := 160, vdl := 480, vnd := 45, divider := 1 }
  | 3 => { hdw := 800, hnd := 128, vdl := 480, vnd := 30, divider := 1 }

/-- FREE VALUE. What a frame-store byte that nothing has written since power-on holds (R48: "no specified value after
power-on"): by the number of the power-on and the address. Log 6. -/
opaque Config.unwrittenByte : Nat → Nat → Byte

/-- FREE VALUE. The order in which the notice block takes the postings that different blocks make at one event (R179: "that
order is either"): by the number of the draw, the port's number and the place in the merge. Log 7. -/
opaque Config.postingTurn : Nat → Nat → Nat → Nat

end Sys2Proof
end

