-- ==== Sys2Proof/Syntax.lean ====
section
/-! DEFINITION. The commands: one constructor per row of spec/opcode_table.json, in the table's order. -/

namespace Sys2Proof

/-- The commands the part takes. A request row carries its port alone: its epoch and its payload fields are those of the
request in work at that port's link, which REQUEST_WINDOW_CLOSE put there (R150, R155; log 1). -/
inductive Instr where
  /-- POWER_ON_RESET: PORn low and its rising edge, with the straps latched there (R165). -/
  | powerOnReset (supv : Port) (preset : Fin 4)
  /-- RSTN_FALL: a falling edge on the port's RSTn (R156). -/
  | rstnFall (port : Port)
  /-- RSTN_RISE: RSTn rises and releases the link (R156). -/
  | rstnRise (port : Port)
  /-- REQUEST_WINDOW_CLOSE: a request window closes; `bits` are the levels sampled on SDI at the rising edges of SCK, first
  first; `heldByReset` says that RSTn (R156) or PORn (log 31) was low at some moment since the window opened (R147, R150, R151). -/
  | requestWindowClose (port : Port) (heldByReset : Bool) (bits : List Bool)
  /-- FETCH_WINDOW_OPEN: CSn falls and a window opens with lead byte 0x5A (R147, R153). -/
  | fetchWindowOpen (port : Port)
  /-- FETCH_WINDOW_CLOSE: the fetch window closes after `edges` rising edges of SCK beyond the lead byte, and CSn
  rises (R147, R153). -/
  | fetchWindowClose (port : Port) (edges : Nat)
  /-- PORT_RESET: a well-formed PORT_RESET frame closes; its payload, of any valid length, is ignored (R156, R163). -/
  | portReset (port : Port) (payload : List Byte)
  | identify (port : Port)
  | openSession (port : Port)
  | closeSession (port : Port)
  | deviceReset (port : Port)
  | supEvictSession (port : Port)
  | noticeRead (port : Port)
  | noticeSubscribe (port : Port)
  | surfAlloc (port : Port)
  | surfFree (port : Port)
  | surfInfo (port : Port)
  | pixWrite (port : Port)
  | pixRead (port : Port)
  | supQuota (port : Port)
  | palGrant (port : Port)
  | palRelease (port : Port)
  | palSeek (port : Port)
  | palWrite (port : Port)
  | palRead (port : Port)
  | editBandPut (port : Port)
  | editBandDrop (port : Port)
  | editBandView (port : Port)
  | editBandSurface (port : Port)
  | editSetTiming (port : Port)
  | editSetRegion (port : Port)
  | editSetBackground (port : Port)
  | editSetStaleColour (port : Port)
  | editEvictBand (port : Port)
  | submit (port : Port)
  | recall (port : Port)
  | abandon (port : Port)
  | touch (port : Port)
  | jobFill (port : Port)
  | jobCopy (port : Port)
  | jobCancel (port : Port)
  | vote (port : Port)
  | supInhibit (port : Port)
  | supPowerTimes (port : Port)
  /-- FRAME_STORE_GRANT: the arbiter grants a waiting access (R68). -/
  | frameStoreGrant
  /-- PORT_ACCESS_COMPLETION: the port access in service completes (R64, R65). -/
  | portAccessCompletion
  /-- ROW_COMPLETION: the engine row in service completes (R94). -/
  | rowCompletion
  /-- LINE_START: the line boundary before a line other than line 0 and line VDL (R110, R120; log 4). -/
  | lineStart
  /-- FRAME_START: the end of a running frame with no stop pending (R110, R113). -/
  | frameStart
  /-- BAND_MARKED_STALE: the FRAME_START at which the named band's age reaches its limit (R125; log 3). -/
  | bandMarkedStale (key : BandKey)
  /-- VBLANK_START: the line boundary before line VDL (R110, R114). -/
  | vblankStart
  /-- LEAD_COUNT_REACHED: the VBLANK_START at which the lead count reaches its target (R140; log 3). -/
  | leadCountReached
  /-- TAIL_COUNT_REACHED: the VBLANK_START at which the tail count reaches its target (R143; log 3). -/
  | tailCountReached
  /-- TIMING_STOPPED: the end of a frame with a stop pending (R117). -/
  | timingStopped
  /-- LINE_FETCH_COMPLETION: the line fetch in service completes (R120). -/
  | lineFetchCompletion
  /-- BACK_PORCH_START: pixel clock HND / 2 of a line (R109). -/
  | backPorchStart
  /-- DISPLAY_PART_START: pixel clock HND of a line (R109, R120). -/
  | displayPartStart
  deriving DecidableEq, Repr

end Sys2Proof
end

