-- ==== Sys2Proof/Decode.lean ====
section
/-! DEFINITION. Decoding: the table's words (none), and the codings of the link (R147, R148, R150, R159, R160, R163): bytes from
bits, the CRC, request frames and their kinds, with an encoder of request frames. -/

namespace Sys2Proof

/-- The rows of spec/opcode_table.json that give bits, each with its number of bits and its word. No row gives any. -/
def tableWords : List (Nat × Nat × Instr) := []

/-- The command a table word spells. No row of the table gives bits, so no word spells one. -/
def decodeTableWord (nbits w : Nat) : Option Instr :=
  (tableWords.find? fun row => row.1 == nbits && row.2.1 == w).map fun row => row.2.2

/-- A byte from its eight bits, most significant first (R147). -/
def byteOfBits (bits : List Bool) : Byte :=
  BitVec.ofNat 8 (bits.foldl (fun acc b => 2 * acc + b.toNat) 0)

/-- The whole bytes of a window, from the bits sampled on SDI; the bits after the last whole byte are discarded (R147). -/
def bytesOfBits : List Bool → List Byte
  | b7 :: b6 :: b5 :: b4 :: b3 :: b2 :: b1 :: b0 :: rest =>
      byteOfBits [b7, b6, b5, b4, b3, b2, b1, b0] :: bytesOfBits rest
  | _ => []

/-- The bits of a byte in the order they cross the link (R147). -/
def bitsOfByte (b : Byte) : List Bool :=
  [b.getLsbD 7, b.getLsbD 6, b.getLsbD 5, b.getLsbD 4, b.getLsbD 3, b.getLsbD 2, b.getLsbD 1, b.getLsbD 0]

/-- The bits of a sequence of bytes in the order they cross the link. -/
def bitsOfBytes (bs : List Byte) : List Bool := bs.flatMap bitsOfByte

/-- One shift of the CRC register (R148): polynomial x^8 + x^2 + x + 1. -/
def crcShift (r : Byte) : Byte := if r.msb then (r <<< 1) ^^^ 0x07#8 else r <<< 1

/-- The CRC register after one more byte (R148). -/
def crcByte (r b : Byte) : Byte :=
  crcShift (crcShift (crcShift (crcShift (crcShift (crcShift (crcShift (crcShift (r ^^^ b))))))))

/-- The CRC-8 of a run of bytes (R148). -/
def crc8 (bs : List Byte) : Byte := bs.foldl crcByte 0#8

/-- Byte i of a payload as a number; 0 beyond its end. -/
def num8 (pl : List Byte) (i : Nat) : Nat := (pl.getD i 0#8).toNat

/-- The two-byte little-endian number at byte i (R159). -/
def num16 (pl : List Byte) (i : Nat) : Nat := num8 pl i + 256 * num8 pl (i + 1)

/-- The three-byte little-endian number at byte i (R160). -/
def num24 (pl : List Byte) (i : Nat) : Nat := num16 pl i + 65536 * num8 pl (i + 2)

/-- A number written in one byte. -/
def put8 (n : Nat) : List Byte := [BitVec.ofNat 8 n]

/-- A number written in two bytes, least significant first (R159). -/
def put16 (n : Nat) : List Byte := [BitVec.ofNat 8 n, BitVec.ofNat 8 (n / 256)]

/-- A number written in three bytes, least significant first (R160). -/
def put24 (n : Nat) : List Byte := [BitVec.ofNat 8 n, BitVec.ofNat 8 (n / 256), BitVec.ofNat 8 (n / 65536)]

/-- The code of a request kind (R163). -/
def Kind.code : Kind → Byte
  | .identify => 0x01#8
  | .openSession => 0x02#8
  | .closeSession => 0x03#8
  | .portReset => 0x04#8
  | .deviceReset => 0x05#8
  | .noticeRead => 0x10#8
  | .noticeSubscribe => 0x11#8
  | .surfAlloc => 0x20#8
  | .surfFree => 0x21#8
  | .surfInfo => 0x22#8
  | .pixWrite => 0x23#8
  | .pixRead => 0x24#8
  | .palGrant => 0x30#8
  | .palRelease => 0x31#8
  | .palSeek => 0x32#8
  | .palWrite => 0x33#8
  | .palRead => 0x34#8
  | .edit => 0x40#8
  | .submit => 0x41#8
  | .recall => 0x42#8
  | .abandon => 0x43#8
  | .touch => 0x48#8
  | .jobFill => 0x50#8
  | .jobCopy => 0x51#8
  | .jobCancel => 0x52#8
  | .vote => 0x58#8
  | .supQuota => 0x60#8
  | .supInhibit => 0x61#8
  | .supPowerTimes => 0x62#8
  | .supEvictSession => 0x63#8

/-- The request kinds of the table in R163, in its order. -/
def Kind.all : List Kind :=
  [.identify, .openSession, .closeSession, .portReset, .deviceReset, .noticeRead, .noticeSubscribe,
   .surfAlloc, .surfFree, .surfInfo, .pixWrite, .pixRead, .palGrant, .palRelease, .palSeek, .palWrite,
   .palRead, .edit, .submit, .recall, .abandon, .touch, .jobFill, .jobCopy, .jobCancel, .vote,
   .supQuota, .supInhibit, .supPowerTimes, .supEvictSession]

/-- The request kind a kind byte names; none for a code not in the table of R163. -/
def Kind.ofCode? (c : Byte) : Option Kind := Kind.all.find? fun k => k.code == c

/-- The payload lengths a kind allows (R163): least and greatest. -/
def Kind.payloadRange : Kind → Nat × Nat
  | .identify => (0, 0)
  | .openSession => (4, 4)
  | .closeSession => (0, 0)
  | .portReset => (0, 261)
  | .deviceReset => (0, 0)
  | .noticeRead => (1, 1)
  | .noticeSubscribe => (1, 1)
  | .surfAlloc => (5, 5)
  | .surfFree => (2, 2)
  | .surfInfo => (2, 2)
  | .pixWrite => (5, 261)
  | .pixRead => (7, 7)
  | .palGrant => (2, 2)
  | .palRelease => (0, 0)
  | .palSeek => (1, 1)
  | .palWrite => (0, 261)
  | .palRead => (1, 1)
  | .edit => (1, 18)
  | .submit => (2, 2)
  | .recall => (0, 0)
  | .abandon => (0, 0)
  | .touch => (1, 1)
  | .jobFill => (13, 13)
  | .jobCopy => (17, 17)
  | .jobCancel => (1, 1)
  | .vote => (1, 1)
  | .supQuota => (3, 3)
  | .supInhibit => (1, 1)
  | .supPowerTimes => (2, 2)
  | .supEvictSession => (1, 1)

/-- Whether a payload of n bytes has a length the kind allows (R154, check 4). -/
def Kind.lengthOk (k : Kind) (n : Nat) : Bool :=
  decide (k.payloadRange.1 ≤ n) && decide (n ≤ k.payloadRange.2)

/-- What a link makes of the whole bytes of a closed request window (R150). -/
inductive FrameVerdict where
  | badFrame (cause : FrameCause) (seq : Byte)
  | badKind (code seq : Byte)
  | portReset (payload : List Byte)
  | request (kind : Kind) (epoch seq : Byte) (payload : List Byte)
  deriving DecidableEq, Repr

/-- The checks of R150 on a request frame, in order. -/
def examineFrame (bs : List Byte) : FrameVerdict :=
  let seq := bs.getD 2 0#8
  let len := num16 bs 3
  let payload := (bs.drop 5).take len
  if bs.length < 6 then .badFrame .short seq
  else if Config.maxRequestPayload < len ∨ bs.length ≠ 6 + len then .badFrame .length seq
  else if crc8 bs ≠ 0#8 then .badFrame .crc seq
  else
    match Kind.ofCode? (bs.getD 0 0#8) with
    | none => .badKind (bs.getD 0 0#8) seq
    | some .portReset => .portReset payload
    | some k => .request k (bs.getD 1 0#8) seq payload

/-- The bytes of a request frame ahead of its CRC (R159). -/
def requestHead (k : Kind) (epoch seq : Byte) (payload : List Byte) : List Byte :=
  k.code :: epoch :: seq :: (put16 payload.length ++ payload)

/-- A request frame as a master sends it (R159): the encoder of `examineFrame`. -/
def requestFrame (k : Kind) (epoch seq : Byte) (payload : List Byte) : List Byte :=
  requestHead k epoch seq payload ++ [crc8 (requestHead k epoch seq payload)]

/-- The code of a reply status (R160). -/
def Status.code : Status → Byte
  | .ok => 0x00#8
  | .pending => 0x01#8
  | .noReply => 0x02#8
  | .badFrame => 0x03#8
  | .badKind => 0x04#8
  | .noSession => 0x05#8
  | .staleSession => 0x06#8
  | .notSupervisor => 0x07#8
  | .sessionOpen => 0x08#8
  | .busy => 0x09#8
  | .range => 0x0A#8
  | .full => 0x0B#8
  | .empty => 0x0C#8
  | .noticeUnread => 0x0D#8
  | .tooLate => 0x0E#8
  | .none => 0x0F#8
  | .badGeometry => 0x10#8
  | .tableFull => 0x11#8
  | .quota => 0x12#8
  | .noSpace => 0x13#8
  | .noSurface => 0x14#8
  | .inUse => 0x15#8
  | .held => 0x16#8
  | .noGrant => 0x17#8
  | .duplicate => 0x18#8
  | .noJob => 0x19#8

/-- The code of a BAD_FRAME cause (R160). -/
def FrameCause.code : FrameCause → Byte
  | .short => 1#8
  | .length => 2#8
  | .crc => 3#8

/-- The code of a rejection reason (R160). -/
def Reason.code : Reason → Byte
  | .noBand => 1#8
  | .noSurface => 2#8
  | .notOwner => 3#8
  | .panelBounds => 4#8
  | .outOfRegion => 5#8
  | .overlap => 6#8
  | .viewport => 7#8
  | .panAlign => 8#8
  | .palette => 9#8
  | .bandLimit => 10#8
  | .range => 11#8

/-- The code of a power state (R160). -/
def PowerState.code : PowerState → Byte
  | .dark => 0#8
  | .logicLead => 1#8
  | .lit => 2#8
  | .logicHeld => 3#8
  | .logicTail => 4#8

/-- A band key on the link: owner × 16 + band number (R162). -/
def BandKey.code (k : BandKey) : Byte := BitVec.ofNat 8 (k.owner.toNat * 16 + k.number.val)

/-- A colour in the three bytes at byte i: the low six bits of each (00_scope.md, Colours; R9). -/
def colourAt (pl : List Byte) (i : Nat) : Colour :=
  ⟨(pl.getD i 0#8).setWidth 6, (pl.getD (i + 1) 0#8).setWidth 6, (pl.getD (i + 2) 0#8).setWidth 6⟩

/-- A colour written in three bytes, each component in the low six bits of its byte. -/
def putColour (c : Colour) : List Byte := [c.r.setWidth 8, c.g.setWidth 8, c.b.setWidth 8]

/-- The handle at byte i, index first (R160); none when the index is above 31. -/
def handleAt (pl : List Byte) (i : Nat) : Option Handle :=
  if h : num8 pl i < 32 then some ⟨⟨num8 pl i, h⟩, pl.getD (i + 1) 0#8⟩ else none

/-- A handle written in two bytes (R160). -/
def putHandle (h : Handle) : List Byte := [BitVec.ofNat 8 h.index.val, h.gen]

/-- The band number at byte i; none when it is above 7 (R20). -/
def bandNumberAt (pl : List Byte) (i : Nat) : Option (Fin 8) :=
  if h : num8 pl i < 8 then some ⟨num8 pl i, h⟩ else none

end Sys2Proof
end

