-- ==== Sys2Proof/Machine/State.lean ====
section
/-! DEFINITION. The state of the part, as plain data: one record per block of 00_scope.md's block overview. -/

namespace Sys2Proof.Machine

/-- What stops the machine. -/
inductive Fault where
  /-- Raised by FRAME_STORE_GRANT alone, when the access it would grant reaches an address of 524288 or more, which does not
  exist (R48). Safe: no state the part reaches posts such an access (log 23). -/
  | frameStoreRange
  deriving DecidableEq, Repr

/-- What the model turns away. -/
inductive Refusal where
  /-- Raised by the arm of a command that has no meaning yet. Safe. No arm raises it. -/
  | notModelled (mnemonic : String)
  deriving DecidableEq, Repr

/-! ### Port links (R149) -/

inductive LinkState where
  | ready | executing | replyReady
  deriving DecidableEq, Repr

/-- One reply frame, less its payload length and its CRC, which R159 and R148 give (R152). -/
structure Reply where
  status : Status
  seq : Byte
  overrun : Bool
  attention : Bool
  payload : List Byte
  deriving DecidableEq, Repr

/-- The request in work at a link: what it handed to the session manager (R150), and whether it waits for its access at the
frame store (R152, R156). -/
structure Work where
  kind : Kind
  epoch : Byte
  payload : List Byte
  posted : Bool
  deriving DecidableEq, Repr

/-- An open fetch window: the reply chosen when it opened, and whether it came from the slot (R153). -/
structure FetchWindow where
  reply : Reply
  fromSlot : Bool
  deriving DecidableEq, Repr

/-- One port link (R149): its state, reply slot, overrun flag, executing sequence and fetch progress; the request in work and the open
fetch window; the levels of its RSTn pin (R156) and of its CSn pin as the fetch rows move it (R147; log 18); and the bytes that SDO shifted
out in its last window (R147; log 20). -/
structure Link where
  state : LinkState
  slot : Option Reply
  overrun : Bool
  execSeq : Byte
  work : Option Work
  window : Option FetchWindow
  progress : Nat
  rstLow : Bool
  csLow : Bool
  sdo : List Byte
  deriving DecidableEq, Repr

/-! ### Sessions (R166) -/

inductive SessionState where
  | idle | opened | closing
  deriving DecidableEq, Repr

/-- The 4-byte label given at OPEN (R168). -/
structure Label where
  b0 : Byte
  b1 : Byte
  b2 : Byte
  b3 : Byte
  deriving DecidableEq, Repr

structure Session where
  state : SessionState
  epoch : Byte
  label : Option Label
  withdrawalPending : Bool
  surfacesPending : Bool
  deriving DecidableEq, Repr

/-! ### Notices (R162, R179) -/

inductive Notice where
  | committed (tag : Byte) (frame : BitVec 16)
  | rejected (tag : Byte) (reason : Reason) (key : Option BandKey)
  | evicted (key : BandKey)
  | stale (key : BandKey)
  | jobDone (tag : Byte)
  | jobCancelled (tag : Byte)
  | jobAborted (tag : Byte)
  | power (state : PowerState)
  | frame (number : BitVec 16)
  deriving DecidableEq, Repr

structure NoticeQueue where
  queue : List Notice
  lost : Bool
  frameSub : Bool
  deriving DecidableEq, Repr

/-! ### The layout (R1 to R3, R18, R23, R24) -/

structure Region where
  top : Nat
  bottom : Nat
  deriving DecidableEq, Repr

/-- A band holds exactly one of its two parts (R2). -/
inductive BandPart where
  | surface (handle : Handle) (x y : Nat)
  | fill (colour : Colour)
  deriving DecidableEq, Repr

structure Band where
  key : BandKey
  first : Nat
  count : Nat
  part : BandPart
  staleLimit : Nat
  deriving DecidableEq, Repr

/-- The five items of the active layout (R3). -/
structure Layout where
  bands : List Band
  background : Colour
  staleColour : Colour
  regions : PerPort Region
  timing : Timing
  deriving DecidableEq, Repr

/-- A staged edit (R20, R21). A BAND_PUT holds its record with the staging port as owner (R1). -/
inductive Edit where
  | bandPut (band : Band)
  | bandDrop (number : Fin 8)
  | bandView (number : Fin 8) (x y : Nat)
  | bandSurface (number : Fin 8) (handle : Handle)
  | setTiming (timing : Timing)
  | setRegion (port : Port) (region : Region)
  | setBackground (colour : Colour)
  | setStaleColour (colour : Colour)
  | evictBand (key : BandKey)
  deriving DecidableEq, Repr

/-- A TRANSACTION entry; the awaited set is a list of arrival numbers (R23). -/
structure Transaction where
  port : Port
  tag : Byte
  waitJobs : Bool
  edits : List Edit
  awaited : List (BitVec 16)
  deriving DecidableEq, Repr

inductive QueueEntry where
  | transaction (t : Transaction)
  | withdrawal (port : Port)
  deriving DecidableEq, Repr

/-- The submission record of a port (R24). -/
inductive SubmitRecord where
  | noSubmit | queued | recalled | applied
  deriving DecidableEq, Repr

structure LayoutController where
  active : Layout
  staging : PerPort (List Edit)
  queue : List QueueEntry
  record : PerPort SubmitRecord
  deriving DecidableEq, Repr

/-! ### Surfaces (R49, R52, R53, R61, R62) -/

inductive SurfState where
  | free | live | retiring
  deriving DecidableEq, Repr

structure SurfEntry where
  state : SurfState
  gen : Byte
  owner : Port
  width : Nat
  height : Nat
  depth : Depth
  stride : Nat
  firstBlock : Nat
  blockCount : Nat
  pendingAbort : Bool
  deriving DecidableEq, Repr

/-- A run of free blocks (R52). -/
structure Extent where
  start : Nat
  length : Nat
  deriving DecidableEq, Repr

structure Allocator where
  table : Vector SurfEntry 32
  free : List Extent
  charge : PerPort Nat
  quota : PerPort Nat
  withdrawalOut : PerPort Bool
  reportOwed : PerPort Bool
  deriving DecidableEq, Repr

/-! ### The frame store and its arbiter (R48, R67, R68) -/

/-- The bytes written since power-on, by address. An address that is not listed has not been written: it holds no specified
value (R48; log 6). -/
abbrev Memory := List Host.Cell

/-- The line fetch of a display line: its run of bytes, and, for indexed depths, the owner's palette entries as they stood
when the line was sourced (R15, R121; log 16). -/
structure LineFetch where
  addr : Nat
  len : Nat
  depth : Depth
  palette : List Colour
  deriving DecidableEq, Repr

inductive AccessOp where
  | write (data : List Byte)
  | read (count : Nat)
  deriving DecidableEq, Repr

/-- A port's PIX_WRITE or PIX_READ access: its first frame-store byte, what it does, and the status of its reply (R64, R65). -/
structure PortAccess where
  port : Port
  addr : Nat
  op : AccessOp
  status : Status
  deriving DecidableEq, Repr

inductive Turn where
  | engine | ports
  deriving DecidableEq, Repr

/-- The access in service (R67). An engine row is `orphan` when DEVICE_RESET removed its job (R106); a port access has
`replyDue` cleared when a port reset took its request away (R156). -/
inductive Service where
  | lineFetch (fetch : LineFetch) (bytes : List Byte)
  | engineRow (orphan : Bool)
  | portAccess (port : Port) (status : Status) (payload : List Byte) (replyDue : Bool)
  deriving DecidableEq, Repr

structure Arbiter where
  turn : Turn
  lineFetch : Option LineFetch
  engineRow : Bool
  ports : List PortAccess
  busy : Option Service
  deriving DecidableEq, Repr

/-! ### The palette (R72 to R74, R79) -/

structure Grant where
  base : Nat
  size : Nat
  deriving DecidableEq, Repr

inductive Component where
  | red | green | blue
  deriving DecidableEq, Repr

structure Cursor where
  offset : Nat
  component : Component
  deriving DecidableEq, Repr

structure PalRecord where
  grant : Option Grant
  cursor : Option Cursor
  unpublished : Bool
  deriving DecidableEq, Repr

structure Palette where
  active : Vector Colour 256
  draft : Vector Colour 256
  records : PerPort PalRecord
  deriving DecidableEq, Repr

/-! ### The copy engine (R88) -/

inductive JobKind where
  | fill (value : Nat)
  | copy (source : Handle) (sx sy : Nat)
  deriving DecidableEq, Repr

inductive Direction where
  | down | up
  deriving DecidableEq, Repr

inductive JobState where
  | queued | running | aborting
  deriving DecidableEq, Repr

structure Job where
  owner : Port
  tag : Byte
  kind : JobKind
  dest : Handle
  dx : Nat
  dy : Nat
  w : Nat
  h : Nat
  direction : Direction
  arrival : BitVec 16
  state : JobState
  rowsDone : Nat
  notify : Bool
  deriving DecidableEq, Repr

structure CopyEngine where
  jobs : List Job
  arrival : BitVec 16
  deriving DecidableEq, Repr

/-! ### Timing and scan-out (R107, R109, R120) -/

inductive RunState where
  | stopped | running
  deriving DecidableEq, Repr

inductive Period where
  | display | nonDisplay
  deriving DecidableEq, Repr

/-- The three parts of a line (R109). -/
inductive LinePart where
  | sync | backPorch | display
  deriving DecidableEq, Repr

structure TimingGenerator where
  run : RunState
  period : Period
  line : Nat
  part : LinePart
  stopPending : Bool
  active : Timing
  pending : Option Timing
  frameNumber : BitVec 16
  deriving DecidableEq, Repr

/-- What scan-out holds for the line being produced (R120). -/
inductive ScanLine where
  /-- no display line is sourced -/
  | none
  /-- the line's fetch is outstanding -/
  | awaiting
  /-- the line's HDW colours are fixed -/
  | fixed (colours : List Colour)
  deriving DecidableEq, Repr

/-! ### Freshness (R124, R127) -/

structure FreshRecord where
  key : BandKey
  age : Nat
  mark : Bool
  deriving DecidableEq, Repr

structure Freshness where
  records : List FreshRecord
  staleSet : List BandKey
  deriving DecidableEq, Repr

/-! ### Power (R134) -/

inductive Vote where
  | off | on
  deriving DecidableEq, Repr

structure PowerSequencer where
  state : PowerState
  votes : PerPort (Option Vote)
  inhibit : Bool
  lead : Nat
  tail : Nat
  frameCount : Nat
  target : Nat
  stopRequested : Bool
  deriving DecidableEq, Repr

/-! ### The whole part -/

/-- Everything the spec gives the part, the model's two counters of free values, and the queue of commands. -/
structure State where
  supv : Port
  preset : Fin 4
  links : PerPort Link
  sessions : PerPort Session
  notices : PerPort NoticeQueue
  layout : LayoutController
  alloc : Allocator
  store : Memory
  arb : Arbiter
  pal : Palette
  engine : CopyEngine
  timing : TimingGenerator
  scan : ScanLine
  fresh : Freshness
  power : PowerSequencer
  powerOns : Nat
  draws : Nat
  pending : List Instr
  deriving DecidableEq, Repr

/-! ### Power-on values -/

/-- The levels of a port's input pins that a power-on reset does not move: RSTn and CSn are low (R165). -/
structure PortPins where
  rstLow : Bool
  csLow : Bool
  deriving DecidableEq, Repr

/-- Both pins high. -/
def PortPins.high : PortPins := { rstLow := false, csLow := false }

/-- The levels of a link's pins. -/
def Link.pins (l : Link) : PortPins := { rstLow := l.rstLow, csLow := l.csLow }

/-- A link after power-on, its pins at the given levels (R149). -/
def Link.powerOn (pins : PortPins) : Link :=
  { state := .ready, slot := none, overrun := false, execSeq := 0#8, work := none, window := none, progress := 0,
    rstLow := pins.rstLow, csLow := pins.csLow, sdo := [] }

/-- A session record after power-on (R166). -/
def Session.powerOn : Session :=
  { state := .idle, epoch := 0#8, label := none, withdrawalPending := false, surfacesPending := false }

/-- An empty notice queue, nothing lost, not subscribed (R184). -/
def NoticeQueue.cleared : NoticeQueue := { queue := [], lost := false, frameSub := false }

/-- The region of every port after power-on and DEVICE_RESET (R12, R13). -/
def Region.whole : Region := { top := 0, bottom := 767 }

/-- The stale colour after power-on and DEVICE_RESET (R12, R13). -/
def Colour.stalePowerOn : Colour := ⟨63#6, 0#6, 63#6⟩

/-- The active layout after power-on (R12). -/
def Layout.powerOn (preset : Fin 4) : Layout :=
  { bands := [], background := Colour.black, staleColour := Colour.stalePowerOn,
    regions := PerPort.every Region.whole, timing := Config.presetTiming preset }

/-- The layout controller after power-on (R12, R18, R24, R26). -/
def LayoutController.powerOn (preset : Fin 4) : LayoutController :=
  { active := Layout.powerOn preset, staging := PerPort.every [], queue := [],
    record := PerPort.every .noSubmit }

/-- A surface-table entry after power-on (R70); a FREE entry uses no other field (R49), and their values here are the model's
DESIGN CHOICE (log 10). -/
def SurfEntry.powerOn : SurfEntry :=
  { state := .free, gen := 0#8, owner := .p0, width := 0, height := 0, depth := .d1, stride := 0,
    firstBlock := 0, blockCount := 0, pendingAbort := false }

/-- The surface allocator after power-on (R70). -/
def Allocator.powerOn : Allocator :=
  { table := Vector.replicate 32 SurfEntry.powerOn, free := [{ start := 0, length := 256 }],
    charge := PerPort.every 0, quota := PerPort.every Config.defaultQuota,
    withdrawalOut := PerPort.every false, reportOwed := PerPort.every false }

/-- The arbiter after power-on (R70). -/
def Arbiter.powerOn : Arbiter :=
  { turn := .ports, lineFetch := none, engineRow := false, ports := [], busy := none }

/-- A port's palette record with nothing held (R87). -/
def PalRecord.absent : PalRecord := { grant := none, cursor := none, unpublished := false }

/-- The palette after power-on (R87). -/
def Palette.powerOn : Palette :=
  { active := Vector.replicate 256 Colour.black, draft := Vector.replicate 256 Colour.black,
    records := PerPort.every PalRecord.absent }

/-- The copy engine after power-on (R104). -/
def CopyEngine.powerOn : CopyEngine := { jobs := [], arrival := 0#16 }

/-- The timing generator after power-on (R122). Period, line position and line part have no meaning while STOPPED (R107); their
values here are the model's DESIGN CHOICE (log 10). -/
def TimingGenerator.powerOn (preset : Fin 4) : TimingGenerator :=
  { run := .stopped, period := .display, line := 0, part := .sync, stopPending := false,
    active := Config.presetTiming preset, pending := none, frameNumber := 0#16 }

/-- The power sequencer after power-on (R134, R146). -/
def PowerSequencer.powerOn : PowerSequencer :=
  { state := .dark, votes := PerPort.every none, inhibit := false, lead := Config.defaultLead,
    tail := Config.defaultTail, frameCount := 0, target := 0, stopRequested := false }

/-- The part after the n-th power-on reset with the given straps, levels of the ports' pins and queue (R165). -/
def State.powerOn (supv : Port) (preset : Fin 4) (pins : PerPort PortPins) (n draws : Nat) (pending : List Instr) :
    State :=
  { supv := supv, preset := preset, links := pins.map Link.powerOn,
    sessions := PerPort.every Session.powerOn, notices := PerPort.every NoticeQueue.cleared,
    layout := LayoutController.powerOn preset, alloc := Allocator.powerOn, store := [],
    arb := Arbiter.powerOn, pal := Palette.powerOn, engine := CopyEngine.powerOn,
    timing := TimingGenerator.powerOn preset, scan := .none,
    fresh := { records := [], staleSet := [] }, power := PowerSequencer.powerOn,
    powerOns := n, draws := draws, pending := pending }

/-- The part right after power-on. The straps (SUPV 0, PRESET 0) and the RSTn and CSn levels (high) are inputs; their values here are the
model's DESIGN CHOICE (log 9). -/
def State.reset : State := State.powerOn .p0 0 (PerPort.every PortPins.high) 0 0 []

end Sys2Proof.Machine
end

