-- ==== Sys2Proof/Machine/Flags.lean ====
section
/-! DEFINITION. Flags and output pins, computed from the state: attention (R164, R183), SDO (R147, R156, R165), demand (R134), LOGIC_EN
and POWER_EN (R138), and the panel outputs (R119). -/

namespace Sys2Proof.Machine

/-- The port's notice queue holds a notice: the attention-pending flag (R164), and ATTNn driven low (R183). -/
def attentionPending (s : State) (p : Port) : Bool := !(s.notices.get p).queue.isEmpty

/-- The level of the port's ATTNn pin: true is high (R183). -/
def attnHigh (s : State) (p : Port) : Bool := !attentionPending s p

/-- An SDO pin is driven while CSn is low, unless RSTn or PORn is low; otherwise it is high-impedance (R147, R156, R165). -/
def sdoPin (porLow : Bool) (pins : PortPins) : Bool := pins.csLow && !pins.rstLow && !porLow

/-- The port's SDO pin is driven. PORn is high between two commands (log 21), and CSn is as the fetch rows left it, for a request window
arrives whole (log 18). -/
def sdoDriven (s : State) (p : Port) : Bool := sdoPin false (s.links.get p).pins

/-- Demand: at least one session votes ON (R134). -/
def demand (s : State) : Bool := Port.all.any fun p => s.power.votes.get p == some .on

/-- LOGIC_EN is asserted in every power state except DARK (R138). -/
def logicEn (s : State) : Bool := s.power.state != .dark

/-- POWER_EN is asserted in LIT (R138). -/
def powerEn (s : State) : Bool := s.power.state == .lit

/-- Timing is stopped, as the layout controller follows it (R45; log 25). -/
def timingStopped (s : State) : Bool := s.timing.run == .stopped

/-- The levels of the panel outputs (R119). `pclk` says that the pixel clock is running on PCLK. `colours` are the colours driven
in the display part, column 0 first; empty where R, G and B are driven 0 throughout (log 12). -/
structure PanelOutputs where
  pclk : Bool
  hsync : Bool
  vsync : Bool
  den : Bool
  colours : List Colour
  deriving DecidableEq, Repr

/-- The colours of the line's display part: those scan-out fixed (R119, R120). -/
def drivenColours : ScanLine → List Colour
  | .fixed cs => cs
  | .none => []
  | .awaiting => []

/-- The panel outputs, by the table of R119. -/
def panelOutputs (s : State) : PanelOutputs :=
  match s.timing.run with
  | .stopped => { pclk := false, hsync := false, vsync := false, den := false, colours := [] }
  | .running =>
    { pclk := true
      hsync := s.timing.part == .sync
      vsync := s.timing.period == .nonDisplay
      den := s.timing.part == .display && s.timing.period == .display
      colours := if s.timing.part = .display ∧ s.timing.period = .display then drivenColours s.scan else [] }

end Sys2Proof.Machine
end

