-- ==== Sys2Proof/Machine/Operands.lean ====
section
/-! DEFINITION. The operands of the commands as they cross the link (R159 to R162): edits read from and written to an EDIT payload,
reply frames, notice records, and the codes of named values. -/

namespace Sys2Proof.Machine

/-- 1 for set or present, 0 for clear or absent (R160). -/
def flagCode (b : Bool) : Byte := if b then 1#8 else 0#8

/-- The number of a port in one byte. -/
def portByte (p : Port) : Byte := BitVec.ofNat 8 p.toNat

/-! ### Replies and notices -/

/-- The flags byte of a reply (R159). -/
def Reply.flags (r : Reply) : Byte := (if r.overrun then 1#8 else 0#8) + (if r.attention then 2#8 else 0#8)

/-- The bytes of a reply frame ahead of its CRC (R159). -/
def Reply.head (r : Reply) : List Byte :=
  r.status.code :: r.seq :: r.flags :: (put16 r.payload.length ++ r.payload)

/-- The whole reply frame as the link shifts it out (R148, R159). -/
def Reply.bytes (r : Reply) : List Byte := r.head ++ [crc8 r.head]

/-- A band key in a notice record, or 0xFF for none (R162). -/
def keyByte : Option BandKey → Byte
  | some k => k.code
  | none => 0xFF#8

/-- The 5-byte record of a notice (R162). -/
def Notice.record : Notice → List Byte
  | .committed tag fr => [1#8, tag] ++ put16 fr.toNat ++ [0xFF#8]
  | .rejected tag reason key => [2#8, tag] ++ put16 reason.code.toNat ++ [keyByte key]
  | .evicted key => [3#8, 0#8] ++ put16 0 ++ [key.code]
  | .stale key => [4#8, 0#8] ++ put16 0 ++ [key.code]
  | .jobDone tag => [5#8, tag] ++ put16 0 ++ [0xFF#8]
  | .jobCancelled tag => [6#8, tag] ++ put16 0 ++ [0xFF#8]
  | .jobAborted tag => [7#8, tag] ++ put16 0 ++ [0xFF#8]
  | .power state => [8#8, state.code] ++ put16 0 ++ [0xFF#8]
  | .frame number => [9#8, 0#8] ++ put16 number.toNat ++ [0xFF#8]

/-- COMMITTED and REJECTED are the outcome notices (chapter 11, section 11.1). -/
def Notice.isOutcome : Notice → Bool
  | .committed _ _ => true
  | .rejected _ _ _ => true
  | .evicted _ | .stale _ | .jobDone _ | .jobCancelled _ | .jobAborted _ | .power _ | .frame _ => false

def SessionState.code : SessionState → Byte
  | .idle => 0#8
  | .opened => 1#8
  | .closing => 2#8

def SurfState.code : SurfState → Byte
  | .free => 0#8
  | .live => 1#8
  | .retiring => 2#8

def JobState.code : JobState → Byte
  | .queued => 0#8
  | .running => 1#8
  | .aborting => 2#8

def Component.code : Component → Byte
  | .red => 0#8
  | .green => 1#8
  | .blue => 2#8

def Vote.code : Vote → Byte
  | .off => 0#8
  | .on => 1#8

/-- The label of an OPEN payload (R168). -/
def labelAt (pl : List Byte) : Label := ⟨pl.getD 0 0#8, pl.getD 1 0#8, pl.getD 2 0#8, pl.getD 3 0#8⟩

/-- A stored label in a reply; none stored writes nothing. -/
def putLabel : Option Label → List Byte
  | some l => [l.b0, l.b1, l.b2, l.b3]
  | none => []

/-! ### Edits (R20, R21, R161) -/

/-- The number of bytes after the kind byte of each edit kind; none for a code that is no edit kind (R161). -/
def editBytes (code : Nat) : Option Nat :=
  match code with
  | 1 => some 17
  | 2 => some 1
  | 3 => some 5
  | 4 => some 3
  | 8 => some 9
  | 9 => some 5
  | 10 => some 3
  | 11 => some 3
  | 12 => some 2
  | _ => none

/-- The supervisor edits (R21). -/
def isSupervisorEdit (code : Nat) : Bool := decide (8 ≤ code)

/-- The part of a BAND_PUT record at the given fields (R20, R161). -/
def parseBandPart (f : List Byte) : Option BandPart :=
  if num8 f 6 = 1 then
    match handleAt f 7 with
    | some h => if num16 f 9 ≤ 2047 ∧ num16 f 11 ≤ 1023 then some (.surface h (num16 f 9) (num16 f 11)) else none
    | none => none
  else if num8 f 6 = 2 then some (.fill (colourAt f 13))
  else none

/-- The fields of a BAND_PUT staged by a port: its record, or none when a field is outside its range (R1, R20). -/
def parseBandPut (p : Port) (f : List Byte) : Option Edit :=
  match bandNumberAt f 0, parseBandPart f with
  | some n, some part =>
    if num16 f 2 ≤ 767 ∧ 1 ≤ num16 f 4 ∧ num16 f 4 ≤ 768 then
      some (.bandPut { key := ⟨p, n⟩, first := num16 f 2, count := num16 f 4, part := part, staleLimit := num8 f 16 })
    else none
  | _, _ => none

/-- The fields of a BAND_DROP (R20). -/
def parseBandDrop (f : List Byte) : Option Edit := (bandNumberAt f 0).map .bandDrop

/-- The fields of a BAND_VIEW (R20). -/
def parseBandView (f : List Byte) : Option Edit :=
  match bandNumberAt f 0 with
  | some n => if num16 f 1 ≤ 2047 ∧ num16 f 3 ≤ 1023 then some (.bandView n (num16 f 1) (num16 f 3)) else none
  | none => none

/-- The fields of a BAND_SURFACE (R20). -/
def parseBandSurface (f : List Byte) : Option Edit :=
  match bandNumberAt f 0, handleAt f 1 with
  | some n, some h => some (.bandSurface n h)
  | _, _ => none

/-- The fields of a SET_TIMING: staged as given (R21). -/
def parseSetTiming (f : List Byte) : Option Edit :=
  some (.setTiming { hdw := num16 f 0, hnd := num16 f 2, vdl := num16 f 4, vnd := num16 f 6, divider := num8 f 8 })

/-- The fields of a SET_REGION (R21). -/
def parseSetRegion (f : List Byte) : Option Edit :=
  match Port.ofNat? (num8 f 0) with
  | some q =>
    if num16 f 1 ≤ 767 ∧ num16 f 3 ≤ 767 ∧ num16 f 1 ≤ num16 f 3 then
      some (.setRegion q { top := num16 f 1, bottom := num16 f 3 })
    else none
  | none => none

/-- The fields of an EVICT_BAND (R21). -/
def parseEvictBand (f : List Byte) : Option Edit :=
  match Port.ofNat? (num8 f 0), bandNumberAt f 1 with
  | some q, some n => some (.evictBand ⟨q, n⟩)
  | _, _ => none

/-- The edit an EDIT payload carries when its length and fields are in range (R19, check 4); none otherwise. -/
def parseEdit (p : Port) (pl : List Byte) : Option Edit :=
  let f := pl.drop 1
  if editBytes (num8 pl 0) ≠ some f.length then none
  else
    match num8 pl 0 with
    | 1 => parseBandPut p f
    | 2 => parseBandDrop f
    | 3 => parseBandView f
    | 4 => parseBandSurface f
    | 8 => parseSetTiming f
    | 9 => parseSetRegion f
    | 10 => some (.setBackground (colourAt f 0))
    | 11 => some (.setStaleColour (colourAt f 0))
    | 12 => parseEvictBand f
    | _ => none

/-- The fields of a band part as a master writes them; the fields of the absent part are written 0 (R161). -/
def putBandPart : BandPart → List Byte
  | .surface h x y => [1#8] ++ putHandle h ++ put16 x ++ put16 y ++ putColour Colour.black
  | .fill c => [2#8, 0#8, 0#8] ++ put16 0 ++ put16 0 ++ putColour c

/-- The EDIT payload that carries an edit (R161): the encoder of `parseEdit`. -/
def putEdit : Edit → List Byte
  | .bandPut b =>
    [1#8, BitVec.ofNat 8 b.key.number.val, portByte b.key.owner] ++ put16 b.first ++ put16 b.count ++
      putBandPart b.part ++ put8 b.staleLimit
  | .bandDrop n => [2#8, BitVec.ofNat 8 n.val]
  | .bandView n x y => [3#8, BitVec.ofNat 8 n.val] ++ put16 x ++ put16 y
  | .bandSurface n h => [4#8, BitVec.ofNat 8 n.val] ++ putHandle h
  | .setTiming t => [8#8] ++ put16 t.hdw ++ put16 t.hnd ++ put16 t.vdl ++ put16 t.vnd ++ put8 t.divider
  | .setRegion q r => [9#8, portByte q] ++ put16 r.top ++ put16 r.bottom
  | .setBackground c => [10#8] ++ putColour c
  | .setStaleColour c => [11#8] ++ putColour c
  | .evictBand k => [12#8, portByte k.owner, BitVec.ofNat 8 k.number.val]

/-- An edit that a staging area of the port can hold: every field within the range the link can carry and staging accepts
(R20, R21). -/
def Edit.stageable (p : Port) : Edit → Bool
  | .bandPut b =>
    decide (b.key.owner = p) && decide (b.first ≤ 767) && decide (1 ≤ b.count) && decide (b.count ≤ 768) &&
      decide (b.staleLimit ≤ 255) &&
      (match b.part with
       | .surface _ x y => decide (x ≤ 2047) && decide (y ≤ 1023)
       | .fill _ => true)
  | .bandDrop _ => true
  | .bandView _ x y => decide (x ≤ 2047) && decide (y ≤ 1023)
  | .bandSurface _ _ => true
  | .setTiming t =>
    decide (t.hdw < 65536) && decide (t.hnd < 65536) && decide (t.vdl < 65536) && decide (t.vnd < 65536) &&
      decide (t.divider < 256)
  | .setRegion _ r => decide (r.top ≤ 767) && decide (r.bottom ≤ 767) && decide (r.top ≤ r.bottom)
  | .setBackground _ => true
  | .setStaleColour _ => true
  | .evictBand _ => true

end Sys2Proof.Machine
end

