-- ==== Sys2Proof/Machine/Ops.lean ====
section
/-! DEFINITION. The shared operations: one home for each piece of state, the frame store, replies, notices, and the taking of a
request at the session manager. -/

namespace Sys2Proof.Machine

/-! ### Replacing one port's record -/

def State.setLink (s : State) (p : Port) (l : Link) : State := { s with links := s.links.set p l }

def State.setSession (s : State) (p : Port) (x : Session) : State := { s with sessions := s.sessions.set p x }

def State.setNotices (s : State) (p : Port) (q : NoticeQueue) : State := { s with notices := s.notices.set p q }

def State.setPalRecord (s : State) (p : Port) (r : PalRecord) : State :=
  { s with pal := { s.pal with records := s.pal.records.set p r } }

def State.setStaging (s : State) (p : Port) (es : List Edit) : State :=
  { s with layout := { s.layout with staging := s.layout.staging.set p es } }

def State.setRecord (s : State) (p : Port) (r : SubmitRecord) : State :=
  { s with layout := { s.layout with record := s.layout.record.set p r } }

def State.setQueue (s : State) (q : List QueueEntry) : State := { s with layout := { s.layout with queue := q } }

def State.setEntry (s : State) (i : Fin 32) (e : SurfEntry) : State :=
  { s with alloc := { s.alloc with table := s.alloc.table.set i.val e i.isLt } }

def State.setJobs (s : State) (js : List Job) : State := { s with engine := { s.engine with jobs := js } }

def State.setVote (s : State) (p : Port) (v : Option Vote) : State :=
  { s with power := { s.power with votes := s.power.votes.set p v } }

/-! ### The frame store (R48) -/

/-- The byte written at an address since power-on; none where nothing has been written. -/
def Memory.find? : Memory → Nat → Option Byte
  | [], _ => none
  | (b, v) :: rest, a => if a = b then some v else Memory.find? rest a

/-- Store one byte, keeping the addresses strictly rising. -/
def Memory.store : Memory → Nat → Byte → Memory
  | [], a, v => [(a, v)]
  | (b, x) :: rest, a, v =>
    if a < b then (a, v) :: (b, x) :: rest
    else if a = b then (a, v) :: rest
    else (b, x) :: Memory.store rest a v

/-- Store a run of bytes from an address on. -/
def Memory.storeRun : Memory → Nat → List Byte → Memory
  | m, _, [] => m
  | m, a, v :: vs => Memory.storeRun (Memory.store m a v) (a + 1) vs

/-- The addresses of a memory rise strictly from a bound on. -/
def Memory.rising : Nat → Memory → Bool
  | _, [] => true
  | n, (a, _) :: rest => decide (n ≤ a) && Memory.rising (a + 1) rest

/-- The canonical form: addresses strictly rising, each of them in the frame store (R48). An unlisted address holds no value, so
no entry repeats one (log 6). -/
def Memory.wf (m : Memory) : Bool :=
  Memory.rising 0 m && m.all fun c => decide (c.1 < Config.storeBytes)

/-- The byte the frame store holds at an address; a free value where nothing has been written since power-on (R48; log 6). -/
def State.byteAt (s : State) (a : Nat) : Byte :=
  match Memory.find? s.store a with
  | some v => v
  | none => Config.unwrittenByte s.powerOns a

/-- A run of n bytes from an address on. -/
def State.bytesAt (s : State) (a n : Nat) : List Byte := (List.range n).map fun i => s.byteAt (a + i)

/-- A run of bytes lies in the frame store (R48). -/
def runInStore (a n : Nat) : Bool := decide (a + n ≤ Config.storeBytes)

/-! ### Notices (R179, R180) -/

def Notice.isFrame : Notice → Bool
  | .frame _ => true
  | _ => false

def Notice.isPower : Notice → Bool
  | .power _ => true
  | _ => false

/-- Fold a notice of a coalesced kind into its partner; none when it has no partner in the queue (R180). -/
def coalesce (n : Notice) (q : List Notice) : Option (List Notice) :=
  match n with
  | .frame _ => if q.any Notice.isFrame then some (q.map fun m => if m.isFrame then n else m) else none
  | .power _ => if q.any Notice.isPower then some (q.map fun m => if m.isPower then n else m) else none
  | .stale _ => if n ∈ q then some q else none
  | .committed _ _ | .rejected _ _ _ | .evicted _ | .jobDone _ | .jobCancelled _ | .jobAborted _ => none

/-- The number of non-outcome notices in a queue. -/
def otherCount (q : List Notice) : Nat := (q.filter fun m => !m.isOutcome).length

/-- The number of outcome notices in a queue. -/
def outcomeCount (q : List Notice) : Nat := (q.filter Notice.isOutcome).length

/-- A notice posted to the queue of an OPEN session (R179). -/
def NoticeQueue.take (nq : NoticeQueue) (n : Notice) : NoticeQueue :=
  match coalesce n nq.queue with
  | some q => { nq with queue := q }
  | none =>
    if n.isOutcome ∨ otherCount nq.queue < Config.maxOtherNotices then { nq with queue := nq.queue ++ [n] }
    else { nq with lost := true }

/-- One posting: the port addressed and the notice. -/
abbrev Posting := Port × Notice

/-- The notice block takes one posting; a port whose session is not OPEN discards it (R179). -/
def post (x : Posting) (s : State) : State :=
  if (s.sessions.get x.1).state = .opened then s.setNotices x.1 ((s.notices.get x.1).take x.2) else s

/-- The notice block takes postings in the order given. -/
def deliver (xs : List Posting) (s : State) : State := xs.foldl (fun t x => post x t) s

/-- Merge two sequences, each kept in its order, by free turns: before each element of the first, a free number of elements of
the second go ahead (log 7). -/
def interleave {α : Type} (turn : Nat → Nat) : Nat → List α → List α → List α
  | _, [], bs => bs
  | _, a :: as, [] => a :: as
  | i, a :: as, b :: bs =>
    let k := turn i % ((b :: bs).length + 1)
    (b :: bs).take k ++ a :: interleave turn (i + 1) as ((b :: bs).drop k)

/-- The postings addressed to a port. -/
def postingsTo (p : Port) (xs : List Posting) : List Posting := xs.filter fun x => decide (x.1 = p)

/-- The order, left open, in which a port's queue takes the postings that three blocks make at one event (R179; log 7). -/
def mergedPostings (draw : Nat) (xs ys zs : List Posting) (p : Port) : List Posting :=
  interleave (Config.postingTurn draw p.toNat) 0 (postingsTo p xs)
    (interleave (Config.postingTurn (draw + 1) p.toNat) 0 (postingsTo p ys) (postingsTo p zs))

/-- The notice block takes the postings that three blocks make at one event, each block's in its own order (R114, R179; log 7). -/
def deliverAny (xs ys zs : List Posting) (s : State) : State :=
  { deliver (Port.all.flatMap (mergedPostings s.draws xs ys zs)) s with draws := s.draws + 2 }

/-! ### Replies (R152) -/

/-- Put a reply in the slot with the given sequence echo and attention flag; the link enters REPLY_READY, and the overrun flag,
reported in it, is cleared (R152). -/
def putReply (attention : Bool) (p : Port) (seq : Byte) (st : Status) (payload : List Byte) (s : State) : State :=
  let l := s.links.get p
  s.setLink p
    { l with
      state := .replyReady
      slot := some { status := st, seq := seq, overrun := l.overrun, attention := attention, payload := payload }
      overrun := false
      work := none }

/-- Fill the reply of the request in work (R152). -/
def fillReply (p : Port) (st : Status) (payload : List Byte) (s : State) : State :=
  putReply (attentionPending s p) p (s.links.get p).execSeq st payload s

/-! ### Taking a request (R154, R155) -/

/-- The supervisor kinds of R154, check 1. -/
def isSupervisorKind : Kind → Bool
  | .deviceReset | .supQuota | .supInhibit | .supPowerTimes | .supEvictSession => true
  | .identify | .openSession | .closeSession | .portReset | .noticeRead | .noticeSubscribe
  | .surfAlloc | .surfFree | .surfInfo | .pixWrite | .pixRead
  | .palGrant | .palRelease | .palSeek | .palWrite | .palRead
  | .edit | .submit | .recall | .abandon | .touch | .jobFill | .jobCopy | .jobCancel | .vote => false

/-- IDENTIFY and OPEN are taken in every session state, whatever their epoch (R154). -/
def needsSession : Kind → Bool
  | .identify | .openSession => false
  | .closeSession | .portReset | .deviceReset | .noticeRead | .noticeSubscribe
  | .surfAlloc | .surfFree | .surfInfo | .pixWrite | .pixRead
  | .palGrant | .palRelease | .palSeek | .palWrite | .palRead
  | .edit | .submit | .recall | .abandon | .touch | .jobFill | .jobCopy | .jobCancel | .vote
  | .supQuota | .supInhibit | .supPowerTimes | .supEvictSession => true

/-- The session manager's checks, in order; none when all pass (R154). -/
def sessionCheck (p : Port) (w : Work) (s : State) : Option Status :=
  let x := s.sessions.get p
  if isSupervisorKind w.kind ∧ (p ≠ s.supv ∨ x.state ≠ .opened) then some .notSupervisor
  else if needsSession w.kind ∧ x.state ≠ .opened then some .noSession
  else if needsSession w.kind ∧ w.epoch ≠ x.epoch then some .staleSession
  else if ¬ w.kind.lengthOk w.payload.length then some .range
  else none

/-- The request in work at a port's link, when it is of the kind and has not yet been taken (R155). -/
def untaken (p : Port) (k : Kind) (s : State) : Option Work :=
  match (s.links.get p).work with
  | some w => if w.kind = k ∧ w.posted = false then some w else none
  | none => none

/-- The session manager takes a request: its checks answer it (R154), or the owning block acts on it. -/
def takeWork (p : Port) (w : Work) (act : List Byte → State → State) (s : State) : State :=
  match sessionCheck p w s with
  | some st => fillReply p st [] s
  | none => act w.payload s

/-- A request row: taken when the request in work at the port is one of its kind; otherwise no such request is there to be taken,
and nothing happens (log 1, log 2). -/
def takeRequest (p : Port) (k : Kind) (act : List Byte → State → State) (s : State) : State :=
  match untaken p k s with
  | some w => takeWork p w act s
  | none => s

end Sys2Proof.Machine
end

