-- ==== Sys2Proof/Machine/Pixels.lean ====
section
/-! DEFINITION. Pixels and bytes: the packing of R16 and R17, a fill or copy row's bytes (R95, R96), and a line's colours (R120). -/

namespace Sys2Proof.Machine

/-- Pixels in one byte: 8, 4, 2, 1, and 1 at depth 16 (R38). -/
def pixelsPerByte : Depth → Nat
  | .d1 => 8
  | .d2 => 4
  | .d4 => 2
  | .d8 => 1
  | .d16 => 1

/-- The byte of a line that holds pixel x, or its first byte at depth 16 (R51). -/
def pixelByte (d : Depth) (x : Nat) : Nat :=
  match d with
  | .d16 => 2 * x
  | .d1 | .d2 | .d4 | .d8 => x / pixelsPerByte d

/-- The bytes that n pixels fill (chapter 1, Depths at a glance). -/
def pixelSpan (d : Depth) (n : Nat) : Nat :=
  match d with
  | .d16 => 2 * n
  | .d1 | .d2 | .d4 | .d8 => n / pixelsPerByte d

/-- Pixel field q of a byte, field 0 at the most significant end (R16). -/
def pixelField (d : Depth) (b : Byte) (q : Nat) : Nat :=
  b.toNat / 2 ^ (8 - d.bits * (q + 1)) % 2 ^ d.bits

/-- The value of pixel x of a line, given the line's bytes (R16, R17). -/
def pixelValue (d : Depth) (line : Nat → Byte) (x : Nat) : Nat :=
  match d with
  | .d16 => (line (2 * x)).toNat + 256 * (line (2 * x + 1)).toNat
  | .d1 | .d2 | .d4 | .d8 => pixelField d (line (x / pixelsPerByte d)) (x % pixelsPerByte d)

/-- A byte packed from its pixel fields, the leftmost first (R16). -/
def packByte (d : Depth) (fields : List Nat) : Byte :=
  BitVec.ofNat 8 (fields.foldl (fun acc v => acc * 2 ^ d.bits + v % 2 ^ d.bits) 0)

/-- Byte j of a line after pixels dx to dx + w − 1 have been given values: fields outside the rectangle keep what the byte held
(R95, R96). -/
def writtenByte (d : Depth) (line : Nat → Byte) (dx w : Nat) (value : Nat → Nat) (j : Nat) : Byte :=
  match d with
  | .d16 =>
    if j % 2 = 0 then BitVec.ofNat 8 (value (j / 2 - dx)) else BitVec.ofNat 8 (value (j / 2 - dx) / 256)
  | .d1 | .d2 | .d4 | .d8 =>
    packByte d <| (List.range (pixelsPerByte d)).map fun q =>
      let x := j * pixelsPerByte d + q
      if dx ≤ x ∧ x < dx + w then value (x - dx) else pixelField d (line j) q

/-- The number of line bytes that a row of w pixels from dx spans (R95). -/
def rowSpan (d : Depth) (dx w : Nat) : Nat :=
  match d with
  | .d16 => 2 * w
  | .d1 | .d2 | .d4 | .d8 => (dx + w - 1) / pixelsPerByte d - dx / pixelsPerByte d + 1

/-- The bytes a row writes, from line byte `pixelByte d dx` on (R95, R96). -/
def rowBytes (d : Depth) (line : Nat → Byte) (dx w : Nat) (value : Nat → Nat) : List Byte :=
  (List.range (rowSpan d dx w)).map fun j => writtenByte d line dx w value (pixelByte d dx + j)

/-- A 5-bit component widened to six: shifted left, its top bit copied below (R17). -/
def widen5 (v : Nat) : BitVec 6 := BitVec.ofNat 6 (2 * v + v / 16)

/-- The colour of a direct-colour pixel value (R17). -/
def directColour (v : Nat) : Colour :=
  ⟨widen5 (v / 2048 % 32), BitVec.ofNat 6 (v / 32 % 64), widen5 (v % 32)⟩

/-- The colours of the bytes of a direct-colour line fetch (R17). -/
def directColours : List Byte → List Colour
  | lo :: hi :: rest => directColour (lo.toNat + 256 * hi.toNat) :: directColours rest
  | _ => []

/-- The colours of one byte of an indexed line fetch, through the owner's palette slice (R16). -/
def indexedColours (d : Depth) (palette : List Colour) (b : Byte) : List Colour :=
  (List.range (pixelsPerByte d)).map fun q => palette.getD (pixelField d b q) Colour.black

/-- The HDW colours of a line from the bytes of its line fetch (R16, R17, R120). -/
def fetchedColours (f : LineFetch) (bytes : List Byte) : List Colour :=
  match f.depth with
  | .d16 => directColours bytes
  | .d1 | .d2 | .d4 | .d8 => bytes.flatMap (indexedColours f.depth f.palette)

end Sys2Proof.Machine
end

