-- ==== Sys2Proof/Machine/SurfaceOps.lean ====
section
/-! DEFINITION. Shared operations of the surface allocator: handles, geometry, the free-extent list, freeing and its reports
(R50 to R62). -/

namespace Sys2Proof.Machine

/-- The entry a handle names: LIVE or RETIRING with the handle's generation (R50). -/
def namedSurface (t : Vector SurfEntry 32) (h : Handle) : Option SurfEntry :=
  let e := t.get h.index
  if e.state ≠ .free ∧ e.gen = h.gen then some e else none

/-- The LIVE surface a handle names. -/
def liveSurface (t : Vector SurfEntry 32) (h : Handle) : Option SurfEntry :=
  let e := t.get h.index
  if e.state = .live ∧ e.gen = h.gen then some e else none

/-- The LIVE surface of a port that a handle on the link names; none also for an index above 31 (R50). -/
def ownLiveSurface (s : State) (p : Port) (h : Option Handle) : Option (Handle × SurfEntry) :=
  match h with
  | none => none
  | some h =>
    match liveSurface s.alloc.table h with
    | some e => if e.owner = p then some (h, e) else none
    | none => none

/-- The stride of a surface (R51): ceil(width × depth / 8), rounded up to a multiple of 8. -/
def strideOf (width : Nat) (d : Depth) : Nat := ((width * d.bits + 7) / 8 + 7) / 8 * 8

/-- The block count of a surface (R51). -/
def blocksOf (stride height : Nat) : Nat := (stride * height + (Config.blockBytes - 1)) / Config.blockBytes

/-- The number of bytes of a surface that accesses reach (R48). -/
def SurfEntry.size (e : SurfEntry) : Nat := e.stride * e.height

/-- The frame-store byte of surface byte o (R48). -/
def SurfEntry.addr (e : SurfEntry) (o : Nat) : Nat := e.firstBlock * Config.blockBytes + o

/-- First fit: the start of the extent with the lowest start that is long enough, and the list without the run (R55). -/
def takeRun (n : Nat) : List Extent → Option (Nat × List Extent)
  | [] => none
  | x :: rest =>
    if n ≤ x.length then
      some (x.start, if x.length = n then rest else { start := x.start + n, length := x.length - n } :: rest)
    else
      match takeRun n rest with
      | some (a, rest') => some (a, x :: rest')
      | none => none

/-- Return a run to the free list, joined with the extents it adjoins (R57). -/
def releaseRun (run : Extent) : List Extent → List Extent
  | [] => [run]
  | x :: rest =>
    if run.start + run.length = x.start then { start := run.start, length := run.length + x.length } :: rest
    else if run.start < x.start then run :: x :: rest
    else if x.start + x.length = run.start then
      match rest with
      | [] => [{ start := x.start, length := x.length + run.length }]
      | y :: rest' =>
        if run.start + run.length = y.start then
          { start := x.start, length := x.length + run.length + y.length } :: rest'
        else { start := x.start, length := x.length + run.length } :: y :: rest'
    else x :: releaseRun run rest

/-- The length of the longest free extent (R54). -/
def longestExtent (fs : List Extent) : Nat := fs.foldl (fun m x => max m x.length) 0

/-- The lowest FREE entry of the surface table (R55). -/
def lowestFree (t : Vector SurfEntry 32) : Option (Fin 32) :=
  (List.finRange 32).find? fun i => decide ((t.get i).state = .free)

/-- A surface's entry becomes FREE: its run returns to the free list, its generation is kept, and its block count leaves the
owner's charge (R57). -/
def freeSurface (i : Fin 32) (s : State) : State :=
  let e := s.alloc.table.get i
  { s with
    alloc :=
      { s.alloc with
        table := s.alloc.table.set i.val { e with state := .free } i.isLt
        free := releaseRun { start := e.firstBlock, length := e.blockCount } s.alloc.free
        charge := s.alloc.charge.set e.owner (s.alloc.charge.get e.owner - e.blockCount) } }

/-- Free every entry that meets a condition, lowest index first. -/
def freeWhere (cond : SurfEntry → Bool) (s : State) : State :=
  (List.finRange 32).foldl (fun t i => if cond (t.alloc.table.get i) then freeSurface i t else t) s

/-- The port has no RETIRING surface. -/
def noRetiring (s : State) (p : Port) : Bool :=
  (List.finRange 32).all fun i =>
    !(decide ((s.alloc.table.get i).state = .retiring) && decide ((s.alloc.table.get i).owner = p))

/-- The report that the port has no RETIRING surface, made once for each teardown, when it is owed, the withdrawal-outstanding
mark is clear and none is left (R62); the session manager clears its surfaces-pending mark (R174). -/
def surfacesReport (p : Port) (s : State) : State :=
  if s.alloc.reportOwed.get p = true ∧ s.alloc.withdrawalOut.get p = false ∧ noRetiring s p = true then
    let x := s.sessions.get p
    { s.setSession p { x with surfacesPending := false } with
      alloc := { s.alloc with reportOwed := s.alloc.reportOwed.set p false } }
  else s

/-- The allocator takes the report that the port's withdrawal has been applied (R62). -/
def withdrawalReport (p : Port) (s : State) : State :=
  let s1 := { s with alloc := { s.alloc with withdrawalOut := s.alloc.withdrawalOut.set p false } }
  surfacesReport p (freeWhere (fun e => decide (e.state = .retiring) && decide (e.owner = p) && !e.pendingAbort) s1)

/-- Set or clear the pending-abort flag of each surface named (R60). -/
def setAbortFlags (flag : Bool) (hs : List Handle) (s : State) : State :=
  hs.foldl
    (fun t h =>
      match namedSurface t.alloc.table h with
      | some e => t.setEntry h.index { e with pendingAbort := flag }
      | none => t)
    s

/-- A surface that the end of a job's running frees: RETIRING, and its owner's withdrawal not outstanding (R60). -/
def freedAtStop (s : State) (hs : List Handle) (i : Fin 32) : Bool :=
  let e := s.alloc.table.get i
  decide (e.state = .retiring) && hs.any (fun h => decide (h.index = i) && decide (h.gen = e.gen)) &&
    !s.alloc.withdrawalOut.get e.owner

/-- The allocator takes the report that a job has stopped running (R60, R62): flags cleared, surfaces freed, and the owner's
report made when it is due. -/
def jobStopReport (owner : Port) (hs : List Handle) (s : State) : State :=
  let s1 := setAbortFlags false hs s
  surfacesReport owner
    ((List.finRange 32).foldl (fun t i => if freedAtStop t hs i then freeSurface i t else t) s1)

end Sys2Proof.Machine
end

