-- ==== Sys2Proof/Machine/PaletteOps.lean ====
section
/-! DEFINITION. Shared operations of the palette: the grant map, the search for a base, the cursor, publication and release
(R74 to R86). -/

namespace Sys2Proof.Machine

/-- The grant a port holds. -/
def grantOf (s : State) (p : Port) : Option Grant := (s.pal.records.get p).grant

/-- The sizes PAL_GRANT takes (R75, check 1), largest first. -/
def grantSizes : List Nat := [256, 128, 64, 32, 16, 8, 4, 2]

/-- The entries base..base + size − 1 lie outside a grant. -/
def clearOfGrant (base size : Nat) : Option Grant → Bool
  | none => true
  | some g => decide (base + size ≤ g.base) || decide (g.base + g.size ≤ base)

/-- The entries base..base + size − 1 lie outside every grant (R75, check 3). -/
def clearOfGrants (s : State) (base size : Nat) : Bool :=
  Port.all.all fun p => clearOfGrant base size (grantOf s p)

/-- The lowest base, a multiple of the size, whose entries are all clear (R75). -/
def findBase (s : State) (size : Nat) : Option Nat :=
  ((List.range (256 / size)).map (· * size)).find? fun b => clearOfGrants s b size

/-- The largest size a PAL_GRANT would obtain, or 0 (R75, check 3). -/
def largestGrant (s : State) : Nat :=
  match grantSizes.find? fun n => (findBase s n).isSome with
  | some n => n
  | none => 0

/-- Replace the entries of a range of a colour array. -/
def mapRange (base size : Nat) (f : Nat → Colour) (a : Vector Colour 256) : Vector Colour 256 :=
  (List.finRange 256).foldl
    (fun v i => if base ≤ i.val ∧ i.val < base + size then v.set i.val (f i.val) i.isLt else v) a

/-- Entry n of a colour array; the arrays have no entry beyond 255. -/
def entryAt (a : Vector Colour 256) (n : Nat) : Colour := a.toList.getD n Colour.black

/-- Publication: the port's draft range is copied into the active array and its unpublished mark cleared (R85); a port without a
grant publishes nothing. -/
def publish (p : Port) (s : State) : State :=
  let r := s.pal.records.get p
  match r.grant with
  | none => s
  | some g =>
    { s with
      pal :=
        { s.pal with
          active := mapRange g.base g.size (entryAt s.pal.draft) s.pal.active
          records := s.pal.records.set p { r with unpublished := false } } }

/-- The release of a port's grant at its withdrawal (R86): the entries keep their values. -/
def releaseGrant (p : Port) (s : State) : State :=
  let r := s.pal.records.get p
  s.setPalRecord p { r with grant := none, unpublished := false }

/-- The cursor after one step (R79). -/
def Cursor.advance (size : Nat) (c : Cursor) : Cursor :=
  match c.component with
  | .red => { c with component := .green }
  | .green => { c with component := .blue }
  | .blue => { offset := if c.offset + 1 < size then c.offset + 1 else size, component := .red }

/-- A parked cursor names no entry (R79). -/
def Cursor.parked (size : Nat) (c : Cursor) : Bool := decide (size ≤ c.offset)

/-- The named component of a colour. -/
def Colour.component (c : Colour) : Component → BitVec 6
  | .red => c.r
  | .green => c.g
  | .blue => c.b

/-- A colour with the named component replaced. -/
def Colour.withComponent (c : Colour) (k : Component) (v : BitVec 6) : Colour :=
  match k with
  | .red => { c with r := v }
  | .green => { c with g := v }
  | .blue => { c with b := v }

/-- The cursor in a reply: offset and component (R80). An absent cursor writes nothing (log 11). -/
def putCursor : Option Cursor → List Byte
  | some c => put16 c.offset ++ [c.component.code]
  | none => []

end Sys2Proof.Machine
end

