-- ==== Sys2Proof/Machine/LayoutOps.lean ====
section
/-! DEFINITION. Shared operations of the layout controller: the tentative copy and its edits (R31 to R34), validation (R35 to R39),
acceptance, rejection and withdrawal (R40 to R44), and the application pass (R28, R45, R46). -/

namespace Sys2Proof.Machine

/-! ### The submit queue -/

def QueueEntry.port : QueueEntry → Port
  | .transaction t => t.port
  | .withdrawal p => p

/-- The port's TRANSACTION entry. -/
def findTransaction (p : Port) : List QueueEntry → Option Transaction
  | [] => none
  | .transaction t :: rest => if t.port = p then some t else findTransaction p rest
  | .withdrawal _ :: rest => findTransaction p rest

/-- The port has a TRANSACTION entry in the submit queue, queued or held. -/
def hasTransaction (s : State) (p : Port) : Bool := (findTransaction p s.layout.queue).isSome

/-- An entry is the port's TRANSACTION. -/
def QueueEntry.isTransactionOf (p : Port) : QueueEntry → Bool
  | .transaction t => decide (t.port = p)
  | .withdrawal _ => false

/-- A TRANSACTION entry is held while its awaited set is not empty (R30). -/
def QueueEntry.held : QueueEntry → Bool
  | .transaction t => !t.awaited.isEmpty
  | .withdrawal _ => false

/-- Remove a finished job, reported by its owner and arrival number, from an entry's awaited set (R103); a set holds jobs of its own
port alone (R23; log 29). -/
def QueueEntry.dropAwaited (owner : Port) (n : BitVec 16) : QueueEntry → QueueEntry
  | .transaction t =>
    .transaction { t with awaited := t.awaited.filter fun m => decide (¬(t.port = owner ∧ m = n)) }
  | .withdrawal p => .withdrawal p

/-! ### Bands in order -/

/-- Band-list order: by first line, then owner port, then band number (R3, R34). -/
def Band.before (a b : Band) : Bool :=
  decide (a.first < b.first) ||
    (decide (a.first = b.first) &&
      (decide (a.key.owner.toNat < b.key.owner.toNat) ||
        (decide (a.key.owner = b.key.owner) && decide (a.key.number.val < b.key.number.val))))

/-- Place a band at the position its first line gives (R3). -/
def insertBand (b : Band) : List Band → List Band
  | [] => [b]
  | x :: rest => if Band.before b x then b :: x :: rest else x :: insertBand b rest

/-- The band with a key. -/
def findBand (k : BandKey) (bs : List Band) : Option Band := bs.find? fun b => decide (b.key = k)

/-- The list without the band of a key. -/
def removeBand (k : BandKey) (bs : List Band) : List Band := bs.filter fun b => decide (b.key ≠ k)

/-- Replace the content of the band of a key, its place unchanged. -/
def setBandPart (k : BandKey) (part : BandPart) (bs : List Band) : List Band :=
  bs.map fun b => if b.key = k then { b with part := part } else b

/-- A band lies wholly within a region (R33). -/
def Band.within (b : Band) (r : Region) : Bool :=
  decide (r.top ≤ b.first) && decide (b.first + b.count ≤ r.bottom + 1)

/-- Two bands share a line (R35, OVERLAP). -/
def Band.shares (a b : Band) : Bool :=
  decide (a.first < b.first + b.count) && decide (b.first < a.first + a.count)

/-- A band covers a panel line (R1). -/
def Band.covers (b : Band) (n : Nat) : Bool := decide (b.first ≤ n) && decide (n < b.first + b.count)

/-! ### The tentative copy (R31 to R33) -/

/-- The tentative copy with its eviction set and its changed set (R31). -/
structure Tentative where
  copy : Layout
  evicted : List BandKey
  changed : List BandKey
  deriving DecidableEq, Repr

/-- Add a key to a set kept in order of entry. -/
def addKey (k : BandKey) (ks : List BandKey) : List BandKey := if k ∈ ks then ks else ks ++ [k]

/-- Remove a key from a set. -/
def dropKey (k : BandKey) (ks : List BandKey) : List BandKey := ks.filter fun j => decide (j ≠ k)

/-- The tentative copy of a layout, its working sets empty (R31). -/
def Tentative.start (l : Layout) : Tentative := { copy := l, evicted := [], changed := [] }

/-- Replace the copy's band list. -/
def Tentative.withBands (t : Tentative) (bs : List Band) : Tentative := { t with copy := { t.copy with bands := bs } }

/-- A band leaves the copy by eviction (R33). -/
def Tentative.evict (t : Tentative) (k : BandKey) : Tentative :=
  { t.withBands (removeBand k t.copy.bands) with evicted := addKey k t.evicted, changed := dropKey k t.changed }

/-- BAND_VIEW and BAND_SURFACE: change the surface part of an existing surface band; NO_BAND otherwise (R32). -/
def Tentative.changeSurface (t : Tentative) (k : BandKey) (f : Handle → Nat → Nat → BandPart) : Except BandKey Tentative :=
  match findBand k t.copy.bands with
  | none => .error k
  | some b =>
    match b.part with
    | .fill _ => .error k
    | .surface h x y =>
      .ok { t.withBands (setBandPart k (f h x y) t.copy.bands) with changed := addKey k t.changed }

/-- One edit applied to the tentative copy; NO_BAND with the edit's key where R32 yields it. A SET_REGION that removes several bands
adds their keys to the eviction set in band-list order: the spec gives no order, and this one is the model's choice (log 30). -/
def applyEdit (p : Port) (t : Tentative) (e : Edit) : Except BandKey Tentative :=
  match e with
  | .bandPut b =>
    .ok { t.withBands (insertBand b (removeBand b.key t.copy.bands)) with changed := addKey b.key t.changed }
  | .bandDrop n =>
    match findBand ⟨p, n⟩ t.copy.bands with
    | none => .error ⟨p, n⟩
    | some _ => .ok { t.withBands (removeBand ⟨p, n⟩ t.copy.bands) with changed := dropKey ⟨p, n⟩ t.changed }
  | .bandView n x y => t.changeSurface ⟨p, n⟩ fun h _ _ => .surface h x y
  | .bandSurface n h => t.changeSurface ⟨p, n⟩ fun _ x y => .surface h x y
  | .setTiming tm => .ok { t with copy := { t.copy with timing := tm } }
  | .setRegion q r =>
    let out := (t.copy.bands.filter fun b => decide (b.key.owner = q) && !b.within r).map Band.key
    let t1 := { t with copy := { t.copy with regions := t.copy.regions.set q r } }
    .ok (out.foldl Tentative.evict t1)
  | .setBackground c => .ok { t with copy := { t.copy with background := c } }
  | .setStaleColour c => .ok { t with copy := { t.copy with staleColour := c } }
  | .evictBand k =>
    match findBand k t.copy.bands with
    | none => .ok t
    | some _ => .ok (t.evict k)

/-- The edits applied one at a time in staging order; the first NO_BAND ends it (R32). -/
def applyEdits (p : Port) : List Edit → Tentative → Except BandKey Tentative
  | [], t => .ok t
  | e :: rest, t =>
    match applyEdit p t e with
    | .error k => .error k
    | .ok t' => applyEdits p rest t'

/-! ### Validation (R35 to R39) -/

/-- Checks 3 to 5 of R35 on a band, given the bands later in the list. -/
def placeFault (l : Layout) (b : Band) (later : List Band) : Option Reason :=
  if l.timing.vdl < b.first + b.count then some .panelBounds
  else if ¬ b.within (l.regions.get b.key.owner) then some .outOfRegion
  else if later.any b.shares then some .overlap
  else none

/-- The owner's grant covers 2^depth entries (R38). -/
def grantCovers (g : Option Grant) (d : Depth) : Bool :=
  match d with
  | .d16 => true
  | .d1 | .d2 | .d4 | .d8 =>
    match g with
    | some g => decide (2 ^ d.bits ≤ g.size)
    | none => false

/-- Checks 6 to 8 of R35 on a surface band. -/
def viewFault (l : Layout) (b : Band) (e : SurfEntry) (x y : Nat) (g : Option Grant) : Option Reason :=
  if e.width < x + l.timing.hdw ∨ e.height < y + b.count then some .viewport
  else if x % pixelsPerByte e.depth ≠ 0 then some .panAlign
  else if ¬ grantCovers g e.depth then some .palette
  else none

/-- The band checks of R35 on one band, in order. -/
def bandFault (s : State) (l : Layout) (b : Band) (later : List Band) : Option Reason :=
  match b.part with
  | .fill _ => placeFault l b later
  | .surface h x y =>
    match liveSurface s.alloc.table h with
    | none => some .noSurface
    | some e =>
      if e.owner ≠ b.key.owner then some .notOwner
      else
        match placeFault l b later with
        | some r => some r
        | none => viewFault l b e x y (grantOf s b.key.owner)

/-- The band checks over the list, in band-list order (R35). -/
def firstBandFault (s : State) (l : Layout) : List Band → Option (Reason × BandKey)
  | [] => none
  | b :: later =>
    match bandFault s l b later with
    | some r => some (r, b.key)
    | none => firstBandFault s l later

/-- The ranges of R10. -/
def timingInRange (t : Timing) : Bool :=
  decide (8 ≤ t.hdw) && decide (t.hdw ≤ 1024) && decide (t.hdw % 8 = 0) &&
    decide (16 ≤ t.hnd) && decide (t.hnd ≤ 512) && decide (1 ≤ t.vdl) && decide (t.vdl ≤ 768) &&
    decide (1 ≤ t.vnd) && decide (t.vnd ≤ 255) && decide (1 ≤ t.divider) && decide (t.divider ≤ 16)

/-- The limits of R6 on the number of bands. -/
def bandCountOk (bs : List Band) : Bool :=
  decide (bs.length ≤ Config.maxBands) &&
    Port.all.all fun p => decide ((bs.filter fun b => decide (b.key.owner = p)).length ≤ Config.maxBandsPerPort)

/-- Validation of a tentative copy: the first check that fails, and the key it carries (R35). -/
def validate (s : State) (l : Layout) : Option (Reason × Option BandKey) :=
  match firstBandFault s l l.bands with
  | some (r, k) => some (r, some k)
  | none =>
    if ¬ bandCountOk l.bands then some (.bandLimit, none)
    else if ¬ timingInRange l.timing then some (.range, none)
    else none

/-! ### Acceptance, rejection, withdrawal (R40 to R44) -/

/-- The freshness records of a new band list (R41, R130): a changed band starts afresh, an untouched band keeps its record, a band
new to the list gets one, and the record of a band that is gone is discarded. -/
def refreshRecords (old : List FreshRecord) (changed : List BandKey) (bs : List Band) : List FreshRecord :=
  bs.map fun b =>
    if b.key ∈ changed then { key := b.key, age := 0, mark := false }
    else
      match old.find? fun r => decide (r.key = b.key) with
      | some r => r
      | none => { key := b.key, age := 0, mark := false }

def Edit.isSetTiming : Edit → Bool
  | .setTiming _ => true
  | _ => false

/-- Hand timing parameters to the timing generator as its pending set (R40, R108). -/
def handTiming (edits : List Edit) (t : Timing) (s : State) : State :=
  if edits.any Edit.isSetTiming then { s with timing := { s.timing with pending := some t } } else s

/-- The EVICTED postings of an acceptance (R42). -/
def evictedPostings (evicted : List BandKey) (bs : List Band) : List Posting :=
  (evicted.filter fun k => (findBand k bs).isNone).map fun k => (k.owner, .evicted k)

/-- Acceptance: the copy becomes the active layout, timing is handed over, the port's draft is published, freshness is told, and
the notices are posted (R40 to R42). -/
def acceptCopy (t : Transaction) (v : Tentative) (s : State) : State × List Posting :=
  let s1 := { s with layout := { s.layout with active := v.copy } }
  let s2 := publish t.port (handTiming t.edits v.copy.timing s1)
  let s3 := { s2 with fresh := { s2.fresh with records := refreshRecords s2.fresh.records v.changed v.copy.bands } }
  (s3, (t.port, .committed t.tag s.timing.frameNumber) :: evictedPostings v.evicted v.copy.bands)

/-- Application of a TRANSACTION entry: tentative copy, validation, acceptance or rejection (R31, R35, R40, R43). -/
def applyTransaction (t : Transaction) (s : State) : State × List Posting :=
  let s0 := s.setRecord t.port .applied
  match applyEdits t.port t.edits (Tentative.start s.layout.active) with
  | .error k => (s0, [(t.port, .rejected t.tag .noBand (some k))])
  | .ok v =>
    match validate s v.copy with
    | some (r, k) => (s0, [(t.port, .rejected t.tag r k)])
    | none => acceptCopy t v s0

/-- Application of a WITHDRAWAL entry: the port's bands and their freshness records go, its grant is released, and the allocator
and the session manager are told (R44). -/
def applyWithdrawal (p : Port) (s : State) : State :=
  let bands := s.layout.active.bands.filter fun b => decide (b.key.owner ≠ p)
  let s1 :=
    { s with
      layout := { s.layout with active := { s.layout.active with bands := bands } }
      fresh := { s.fresh with records := s.fresh.records.filter fun r => decide (r.key.owner ≠ p) } }
  let s2 := withdrawalReport p (releaseGrant p s1)
  s2.setSession p { s2.sessions.get p with withdrawalPending := false }

/-- Application of one entry that is not held (R28). -/
def applyEntry (e : QueueEntry) (s : State) : State × List Posting :=
  match e with
  | .transaction t => applyTransaction t s
  | .withdrawal p => (applyWithdrawal p s, [])

/-- The entries of a queue applied in order, the held ones skipped; each against the layout the earlier ones left (R28). -/
def applyEntries : List QueueEntry → State → State × List Posting
  | [], s => (s, [])
  | e :: rest, s =>
    if e.held then applyEntries rest s
    else
      let (s1, xs) := applyEntry e s
      let (s2, ys) := applyEntries rest s1
      (s2, xs ++ ys)

/-- One pass over the submit queue: when it ends, the queue holds the held entries in their order (R28, R46). -/
def applicationPass (s : State) : State × List Posting :=
  applyEntries s.layout.queue (s.setQueue (s.layout.queue.filter QueueEntry.held))

/-- While timing is stopped an entry that is not held is applied at once (R45; log 19). -/
def applyIfStopped (s : State) : State :=
  if timingStopped s then
    let (s1, xs) := applicationPass s
    deliver xs s1
  else s

/-- The layout controller takes the report that a job has finished (R103): it leaves the awaited set that holds it, and while timing is
stopped an entry that is no longer held is applied at once (R45). -/
def jobFinished (owner : Port) (n : BitVec 16) (s : State) : State :=
  applyIfStopped (s.setQueue (s.layout.queue.map (QueueEntry.dropAwaited owner n)))

/-- A CLOSING session whose two marks are clear returns to IDLE, its label absent (R174). -/
def settleSession (x : Session) : Session :=
  if x.state = .closing ∧ x.withdrawalPending = false ∧ x.surfacesPending = false then
    { x with state := .idle, label := none }
  else x

/-- Every session that has become able to return to IDLE does so (R174). -/
def settleSessions (s : State) : State := { s with sessions := s.sessions.map settleSession }

end Sys2Proof.Machine
end

