-- ==== Sys2Proof/Machine/EngineOps.lean ====
section
/-! DEFINITION. Shared operations of the copy engine: starting, aborting, cancelling and ending jobs, and the rows they write
(R88 to R103). -/

namespace Sys2Proof.Machine

/-- The running job: the one that is RUNNING or ABORTING (R88). -/
def runningJob (js : List Job) : Option Job := js.find? fun j => decide (j.state ≠ .queued)

/-- The surfaces a job names (R60). -/
def Job.handles (j : Job) : List Handle :=
  match j.kind with
  | .fill _ => [j.dest]
  | .copy src _ _ => [j.dest, src]

/-- A job names a surface, as source or destination (R59). -/
def Job.names (j : Job) (h : Handle) : Bool := decide (h ∈ j.handles)

/-- The jobs without one of them: the jobs behind it keep their order (R89). -/
def removeJob (j : Job) : List Job → List Job
  | [] => []
  | k :: rest => if k = j then rest else k :: removeJob j rest

/-- The jobs with the record of one of them replaced. -/
def replaceJob (j j' : Job) : List Job → List Job
  | [] => []
  | k :: rest => if k = j then j' :: rest else k :: replaceJob j j' rest

/-- The running job's row access is posted to the arbiter (R93, R94). -/
def postRow (s : State) : State := { s with arb := { s.arb with engineRow := true } }

/-- When no job runs, the oldest QUEUED job starts: it becomes RUNNING and its row 0 is posted (R93). -/
def startNextJob (s : State) : State :=
  match runningJob s.engine.jobs with
  | some _ => s
  | none =>
    match s.engine.jobs with
    | [] => s
    | j :: rest => postRow (s.setJobs ({ j with state := .running } :: rest))

/-- The abort of a RUNNING job begins (R99); a job already ABORTING stays so. -/
def beginAbort (j : Job) (s : State) : State :=
  match j.state with
  | .running => setAbortFlags true j.handles (s.setJobs (replaceJob j { j with state := .aborting } s.engine.jobs))
  | .aborting | .queued => s

/-- Cancellation of a QUEUED job: it leaves the queue, its owner is told, and the layout controller is told (R98, R101). -/
def cancelJob (j : Job) (s : State) : State :=
  jobFinished j.owner j.arrival (post (j.owner, .jobCancelled j.tag) (s.setJobs (removeJob j s.engine.jobs)))

/-- The end of the running job: it leaves the queue, its owner is told when its notify field is set, then the allocator, then the
layout controller; then the oldest QUEUED job starts (R97, R100). -/
def endJob (j : Job) (n : Notice) (s : State) : State :=
  let s1 := s.setJobs (removeJob j s.engine.jobs)
  let s2 := if j.notify then post (j.owner, n) s1 else s1
  startNextJob (jobFinished j.owner j.arrival (jobStopReport j.owner j.handles s2))

/-- The engine's part of a teardown: the port's QUEUED jobs go, oldest first, with no notice; the port's running job loses its
notify field and, if RUNNING, begins its abort (R102). -/
def teardownJobs (p : Port) (s : State) : State :=
  let mine := s.engine.jobs.filter fun j => decide (j.owner = p) && decide (j.state = .queued)
  let s1 := mine.foldl (fun t j => jobFinished p j.arrival (t.setJobs (removeJob j t.engine.jobs))) s
  match runningJob s1.engine.jobs with
  | some j =>
    if j.owner = p then
      let j' := { j with notify := false }
      beginAbort j' (s1.setJobs (replaceJob j j' s1.engine.jobs))
    else s1
  | none => s1

/-! ### Rows -/

/-- The destination line of row k (R92). -/
def Job.destLine (j : Job) : Nat :=
  match j.direction with
  | .down => j.dy + j.rowsDone
  | .up => j.dy + j.h - 1 - j.rowsDone

/-- The source line of row k of a copy (R92). -/
def Job.sourceLine (j : Job) (sy : Nat) : Nat :=
  match j.direction with
  | .down => sy + j.rowsDone
  | .up => sy + j.h - 1 - j.rowsDone

/-- The bytes of one line of a surface. -/
def lineBytes (s : State) (e : SurfEntry) (y : Nat) : Nat → Byte := fun i => s.byteAt (e.addr (y * e.stride + i))

/-- One row of a job as it is written: the first frame-store byte and the bytes (R95, R96). -/
def rowWrite (s : State) (j : Job) : Nat × List Byte :=
  let e := s.alloc.table.get j.dest.index
  let value : Nat → Nat :=
    match j.kind with
    | .fill v => fun _ => v
    | .copy src sx sy =>
      let f := s.alloc.table.get src.index
      fun i => pixelValue f.depth (lineBytes s f (j.sourceLine sy)) (sx + i)
  (e.addr (j.destLine * e.stride + pixelByte e.depth j.dx),
    rowBytes e.depth (lineBytes s e j.destLine) j.dx j.w value)

/-- The source run of a copy row lies in the frame store (R48); a fill reads no other line. -/
def rowSourceInStore (s : State) (j : Job) : Bool :=
  match j.kind with
  | .fill _ => true
  | .copy src sx sy =>
    let f := s.alloc.table.get src.index
    runInStore (f.addr (j.sourceLine sy * f.stride + pixelByte f.depth sx)) (rowSpan f.depth sx j.w)

end Sys2Proof.Machine
end

