-- ==== Sys2Proof/Machine/ScanOps.lean ====
section
/-! DEFINITION. Shared operations of the timing generator, scan-out and the freshness monitor's FRAME_START (R107 to R127). -/

namespace Sys2Proof.Machine

/-! ### Boundaries (R110) -/

/-- The generator runs and its line is in its display part, the end of which is the next line boundary (R109, R110). -/
def inDisplayPart (s : State) : Bool := s.timing.run == .running && s.timing.part == .display

/-- The next boundary ends the frame's last line, VDL + VND − 1 (R110). -/
def atFrameEnd (s : State) : Bool :=
  inDisplayPart s && decide (s.timing.line + 1 = s.timing.active.vdl + s.timing.active.vnd)

/-- The next boundary begins line VDL (R110). -/
def atVblank (s : State) : Bool := inDisplayPart s && decide (s.timing.line + 1 = s.timing.active.vdl)

/-- The next boundary begins a line other than line 0 and line VDL (R110). -/
def atPlainLine (s : State) : Bool :=
  inDisplayPart s && decide (s.timing.line + 1 ≠ s.timing.active.vdl) &&
    decide (s.timing.line + 1 < s.timing.active.vdl + s.timing.active.vnd)

/-! ### Sourcing a display line (R14, R15, R120, R121) -/

/-- A line of one colour (R14, cases 1 to 3). -/
def plainLine (c : Colour) (s : State) : State :=
  { s with scan := .fixed (List.replicate s.layout.active.timing.hdw c) }

/-- The owner's palette entries that a line of an indexed depth can select, as they stand (R16, R121; log 16). -/
def paletteSlice (s : State) (owner : Port) (d : Depth) : List Colour :=
  match d with
  | .d16 => []
  | .d1 | .d2 | .d4 | .d8 =>
    match grantOf s owner with
    | some g => (List.range (2 ^ d.bits)).map fun v => entryAt s.pal.active (g.base + v)
    | none => []

/-- The line fetch of display line n of a surface band (R15). -/
def lineFetchOf (s : State) (b : Band) (h : Handle) (x y n : Nat) : LineFetch :=
  let e := s.alloc.table.get h.index
  { addr := e.addr ((y + (n - b.first)) * e.stride + pixelByte e.depth x)
    len := pixelSpan e.depth s.layout.active.timing.hdw
    depth := e.depth
    palette := paletteSlice s b.key.owner e.depth }

/-- Scan-out sources display line n, by the first case of R14 that applies. -/
def sourceLine (n : Nat) (s : State) : State :=
  match s.layout.active.bands.find? fun b => b.covers n with
  | none => plainLine s.layout.active.background s
  | some b =>
    if b.key ∈ s.fresh.staleSet then plainLine s.layout.active.staleColour s
    else
      match b.part with
      | .fill c => plainLine c s
      | .surface h x y =>
        { s with scan := .awaiting, arb := { s.arb with lineFetch := some (lineFetchOf s b h x y n) } }

/-! ### FRAME_START (R113, R125 to R127) -/

/-- The stale limit of the band with a key, 0 when there is none (R124: read from the band record). -/
def limitOf (bs : List Band) (k : BandKey) : Nat :=
  match findBand k bs with
  | some b => b.staleLimit
  | none => 0

/-- FRAME_START marks the record: not marked before, and its age now equals a limit of 1 or more (R125). -/
def marksNow (bs : List Band) (r : FreshRecord) : Bool :=
  !r.mark && decide (1 ≤ limitOf bs r.key) && decide (r.age + 1 = limitOf bs r.key)

/-- One record aged at FRAME_START (R125). -/
def ageRecord (bs : List Band) (r : FreshRecord) : FreshRecord :=
  if r.mark = true ∨ limitOf bs r.key = 0 then r
  else { r with age := r.age + 1, mark := marksNow bs r }

/-- The STALE postings for a marked band: to its owner, then to the supervisor port when that is another (R126). -/
def stalePostings (supv : Port) (k : BandKey) : List Posting :=
  if k.owner = supv then [(k.owner, .stale k)] else [(k.owner, .stale k), (supv, .stale k)]

/-- The pending set, if present, becomes the active set (R108). -/
def TimingGenerator.takePending (g : TimingGenerator) : TimingGenerator :=
  match g.pending with
  | some t => { g with active := t, pending := none }
  | none => g

/-- FRAME_START: the pending set takes effect, line 0 begins, the bands are aged and marked, the stale set is published, and
scan-out sources line 0 with it (R113, R125, R127). -/
def beginFrame (s : State) : State × List Posting :=
  let bands := s.layout.active.bands
  let records := s.fresh.records.map (ageRecord bands)
  let marked := (s.fresh.records.filter (marksNow bands)).map FreshRecord.key
  let stale := (records.filter FreshRecord.mark).map FreshRecord.key
  let g := s.timing.takePending
  let s1 :=
    { s with
      timing := { g with period := .display, line := 0, part := .sync }
      fresh := { records := records, staleSet := stale } }
  (sourceLine 0 s1, marked.flatMap (stalePostings s.supv))

/-! ### Start and stop requests (R112, R115, R118) -/

/-- A start request: acted on in STOPPED alone; the generator takes in the pending set, runs, and takes FRAME_START at once
(R112). -/
def startRequest (s : State) : State × List Posting :=
  match s.timing.run with
  | .running => (s, [])
  | .stopped => beginFrame { s with timing := { s.timing.takePending with run := .running } }

/-- A stop request: acted on while RUNNING, where it sets the stop-pending mark (R115, R116, R118). -/
def stopRequest (s : State) : State :=
  match s.timing.run with
  | .stopped => s
  | .running => { s with timing := { s.timing with stopPending := true } }

end Sys2Proof.Machine
end

