-- ==== Sys2Proof/Machine/PowerOps.lean ====
section
/-! DEFINITION. Shared operations of the power sequencer: its transitions (R139 to R144) and what they ask of the timing generator. -/

namespace Sys2Proof.Machine

/-- The POWER postings of a change of state, one for each port (R145); the notice block discards those to sessions not OPEN. -/
def powerPostings (st : PowerState) : List Posting := Port.all.map fun p => (p, .power st)

/-- What one event at the sequencer brings: the state, its POWER postings, and whether it makes a start request. -/
structure PowerStep where
  state : State
  posts : List Posting
  start : Bool
  deriving DecidableEq, Repr

/-- An event that changes nothing at the sequencer. -/
def PowerStep.none (s : State) : PowerStep := { state := s, posts := [], start := false }

/-- Enter a power state. -/
def enterPower (st : PowerState) (s : State) : PowerStep :=
  { state := { s with power := { s.power with state := st } }, posts := powerPostings st, start := false }

/-- Enter LOGIC_LEAD: frame count 0, count target L (R139, R142, R143). -/
def enterLead (s : State) : PowerStep :=
  enterPower .logicLead { s with power := { s.power with frameCount := 0, target := s.power.lead } }

/-- Enter LOGIC_TAIL: frame count 0, count target T (R141, R142). -/
def enterTail (s : State) : PowerStep :=
  enterPower .logicTail { s with power := { s.power with frameCount := 0, target := s.power.tail } }

/-- The sequencer makes a stop request and sets its mark (R140, R143). -/
def requestStop (s : State) : PowerStep :=
  PowerStep.none (stopRequest { s with power := { s.power with stopRequested := true } })

/-- Demand appears (R139, R143). -/
def demandAppears (s : State) : PowerStep :=
  match s.power.state with
  | .dark => { enterLead s with start := true }
  | .logicTail => if s.power.stopRequested then PowerStep.none s else enterLead s
  | .logicLead | .lit | .logicHeld => PowerStep.none s

/-- Demand is lost (R140, R142). -/
def demandLost (s : State) : PowerStep :=
  match s.power.state with
  | .logicLead => if s.power.stopRequested then PowerStep.none s else requestStop s
  | .logicHeld => enterTail s
  | .dark | .lit | .logicTail => PowerStep.none s

/-- The sequencer acts on a change of demand (R135). -/
def demandChange (before : Bool) (s : State) : PowerStep :=
  if before = demand s then PowerStep.none s
  else if demand s then demandAppears s
  else demandLost s

/-- The count in progress reaches its target at the next VBLANK_START (R140, R143). -/
def countReaches (s : State) : Bool := decide (s.power.target ≤ s.power.frameCount + 1)

/-- The frame count rises by 1. -/
def countFrame (s : State) : State := { s with power := { s.power with frameCount := s.power.frameCount + 1 } }

/-- The sequencer takes VBLANK_START (R140, R141, R143). -/
def powerVblank (s : State) : PowerStep :=
  match s.power.state with
  | .logicLead =>
    if s.power.stopRequested then PowerStep.none s
    else if countReaches s then enterPower (if s.power.inhibit then .logicHeld else .lit) (countFrame s)
    else PowerStep.none (countFrame s)
  | .lit =>
    if ¬ demand s then enterTail s
    else if s.power.inhibit then enterPower .logicHeld s
    else PowerStep.none s
  | .logicTail =>
    if s.power.stopRequested then PowerStep.none s
    else if countReaches s then requestStop (countFrame s)
    else PowerStep.none (countFrame s)
  | .dark | .logicHeld => PowerStep.none s

/-- The sequencer takes TIMING_STOPPED: DARK, and LOGIC_LEAD again at once when demand is present (R144). -/
def powerStopped (s : State) : PowerStep :=
  let dark := enterPower .dark { s with power := { s.power with stopRequested := false } }
  if demand s then
    let lead := enterLead dark.state
    { state := lead.state, posts := dark.posts ++ lead.posts, start := true }
  else dark

/-- The sequencer takes DEVICE_RESET (R146). -/
def powerDeviceReset (s : State) : PowerStep :=
  let s1 :=
    { s with
      power :=
        { s.power with
          votes := PerPort.every none, inhibit := false, lead := Config.defaultLead, tail := Config.defaultTail } }
  match s.power.state with
  | .dark | .logicTail => PowerStep.none s1
  | .lit => enterTail s1
  | .logicLead | .logicHeld => if s.power.stopRequested then PowerStep.none s1 else enterTail s1

/-- Finish an event of the sequencer: the start request is taken at the generator, and the POWER postings and the postings of the
generator's FRAME_START reach the notice block in an order left open; `ahead` are postings made before that FRAME_START (R112,
R145, R179). -/
def finishPower (ahead : List Posting) (x : PowerStep) : State :=
  if x.start then
    let (s1, stale) := startRequest x.state
    deliverAny x.posts (ahead ++ stale) [] s1
  else deliverAny x.posts ahead [] x.state

/-- Replace a port's vote and act on the change of demand it brings (R135). -/
def changeVote (p : Port) (v : Option Vote) (s : State) : State :=
  finishPower [] (demandChange (demand s) (s.setVote p v))

end Sys2Proof.Machine
end

