-- ==== Sys2Proof/Machine/SessionOps.lean ====
section
/-! DEFINITION. Shared operations of the session manager: discarding a waiting pixel access (R69), teardown (R173), and the port
reset at link and session (R156, R171). -/

namespace Sys2Proof.Machine

/-- A port's pixel access that waits at the arbiter, not yet granted, is discarded; a request still in work at the link for it is
answered NO_SESSION (R69). `attention` is the flag of that reply. -/
def discardAccess (attention : Bool) (p : Port) (s : State) : State :=
  let waits := s.arb.ports.any fun a => decide (a.port = p)
  let s1 := { s with arb := { s.arb with ports := s.arb.ports.filter fun a => decide (a.port ≠ p) } }
  if waits then
    match (s1.links.get p).work with
    | some _ => putReply attention p (s1.links.get p).execSeq .noSession [] s1
    | none => s1
  else s1

/-- Every LIVE surface of the port becomes RETIRING (R61). -/
def retireSurfaces (p : Port) (t : Vector SurfEntry 32) : Vector SurfEntry 32 :=
  t.map fun e => if e.state = .live ∧ e.owner = p then { e with state := .retiring } else e

/-- Step 1 of the teardown: the surface allocator (R61, R62, R69, R173). -/
def teardownSurfaces (p : Port) (s : State) : State :=
  discardAccess (attentionPending s p) p
    { s with
      alloc :=
        { s.alloc with
          table := retireSurfaces p s.alloc.table
          withdrawalOut := s.alloc.withdrawalOut.set p true
          reportOwed := s.alloc.reportOwed.set p true } }

/-- Step 2 of the teardown: the layout controller discards the staging area and the port's TRANSACTION entry (R27, R173). -/
def teardownLayout (p : Port) (s : State) : State :=
  ((s.setStaging p []).setQueue (s.layout.queue.filter fun e => !e.isTransactionOf p)).setRecord p .noSubmit

/-- Step 4 of the teardown: a WITHDRAWAL entry at the tail, applied at once while timing is stopped (R27, R45, R173). -/
def appendWithdrawal (p : Port) (s : State) : State :=
  applyIfStopped (s.setQueue (s.layout.queue ++ [.withdrawal p]))

/-- Step 5 of the teardown: the palette makes the port's cursor absent (R86, R173). -/
def dropCursor (p : Port) (s : State) : State :=
  s.setPalRecord p { s.pal.records.get p with cursor := none }

/-- The teardown of an OPEN session: CLOSING with both marks set, the seven steps, and the return to IDLE at the end of step 7 when
both marks are already clear (R173, R174). -/
def teardown (p : Port) (s : State) : State :=
  let x := s.sessions.get p
  let s0 := s.setSession p { x with state := .closing, withdrawalPending := true, surfacesPending := true }
  let s4 := appendWithdrawal p (teardownJobs p (teardownLayout p (teardownSurfaces p s0)))
  let s6 := changeVote p none (dropCursor p s4)
  settleSessions (s6.setNotices p NoticeQueue.cleared)

/-- The port reset at the link: slot empty, overrun flag, fetch progress and sequence cleared, READY; the request in work is no longer in
work, an access of it in service owes no reply, and a window that is open is ignored to its end (R156). -/
def resetLink (p : Port) (s : State) : State :=
  let l := s.links.get p
  let s1 :=
    s.setLink p
      { l with
        state := .ready, slot := none, overrun := false, execSeq := 0#8, work := none, window := none, progress := 0 }
  match s1.arb.busy with
  | some (.portAccess q st payload _) =>
    if q = p then { s1 with arb := { s1.arb with busy := some (.portAccess q st payload false) } } else s1
  | some (.lineFetch _ _) | some (.engineRow _) | none => s1

/-- A port reset: the link, then the session manager, which starts a teardown in OPEN alone (R156, R171). -/
def portResetAt (p : Port) (s : State) : State :=
  let s1 := resetLink p s
  if (s1.sessions.get p).state = .opened then teardown p s1 else s1

end Sys2Proof.Machine
end

