-- ==== Sys2Proof/Machine/Edits.lean ====
section
/-! DEFINITION. The nine EDIT rows, SUBMIT, RECALL and ABANDON (R18 to R25). -/

namespace Sys2Proof.Machine

/-- The EDIT request at the layout controller: the checks of R19 in order, and the staging. -/
def stageEdit (p : Port) (pl : List Byte) (s : State) : State :=
  let code := num8 pl 0
  let staged := s.layout.staging.get p
  if hasTransaction s p then fillReply p .pending [] s
  else if editBytes code = none then fillReply p .range [] s
  else if isSupervisorEdit code = true ∧ p ≠ s.supv then fillReply p .notSupervisor [] s
  else
    match parseEdit p pl with
    | none => fillReply p .range [] s
    | some e =>
      if Config.maxEdits ≤ staged.length then fillReply p .full [] s
      else fillReply p .ok (put8 (staged.length + 1)) (s.setStaging p (staged ++ [e]))

/-- An EDIT in work belongs to the row of its edit kind; one that names no edit kind, which R154 or R19 refuses, may be taken under
any of the nine rows (log 5). -/
def editRowTakes (code : Nat) (w : Work) : Bool :=
  decide (w.payload.head?.map BitVec.toNat = some code) || decide (editBytes (num8 w.payload 0) = none) ||
    w.payload.isEmpty

/-- An EDIT row: the EDIT in work of its edit kind is taken. -/
def takeEdit (p : Port) (code : Nat) (s : State) : State :=
  match untaken p .edit s with
  | some w => if editRowTakes code w then takeWork p w (stageEdit p) s else s
  | none => s

def execEditBandPut (p : Port) (s : State) : Host.Outcome State Fault Refusal := .next (takeEdit p 1 s)

def execEditBandDrop (p : Port) (s : State) : Host.Outcome State Fault Refusal := .next (takeEdit p 2 s)

def execEditBandView (p : Port) (s : State) : Host.Outcome State Fault Refusal := .next (takeEdit p 3 s)

def execEditBandSurface (p : Port) (s : State) : Host.Outcome State Fault Refusal := .next (takeEdit p 4 s)

def execEditSetTiming (p : Port) (s : State) : Host.Outcome State Fault Refusal := .next (takeEdit p 8 s)

def execEditSetRegion (p : Port) (s : State) : Host.Outcome State Fault Refusal := .next (takeEdit p 9 s)

def execEditSetBackground (p : Port) (s : State) : Host.Outcome State Fault Refusal := .next (takeEdit p 10 s)

def execEditSetStaleColour (p : Port) (s : State) : Host.Outcome State Fault Refusal := .next (takeEdit p 11 s)

def execEditEvictBand (p : Port) (s : State) : Host.Outcome State Fault Refusal := .next (takeEdit p 12 s)

/-- The port has an entry in the submit queue (R23, check 1). -/
def hasEntry (s : State) (p : Port) : Bool := s.layout.queue.any fun e => decide (e.port = p)

/-- The port's notice queue holds an outcome notice (R23, check 2). -/
def outcomeUnread (s : State) (p : Port) : Bool := (s.notices.get p).queue.any Notice.isOutcome

/-- The arrival numbers of every job of the port that the engine holds (R23). -/
def jobsOf (s : State) (p : Port) : List (BitVec 16) :=
  (s.engine.jobs.filter fun j => decide (j.owner = p)).map Job.arrival

/-- The entry a SUBMIT builds (R23). -/
def builtEntry (p : Port) (tag : Byte) (wait : Bool) (s : State) : Transaction :=
  { port := p, tag := tag, waitJobs := wait, edits := s.layout.staging.get p,
    awaited := if wait then jobsOf s p else [] }

/-- The staging area moves into a TRANSACTION entry at the tail of the queue (R23). -/
def enqueueEntry (p : Port) (t : Transaction) (s : State) : State :=
  ((s.setStaging p []).setRecord p .queued).setQueue (s.layout.queue ++ [.transaction t])

/-- SUBMIT (R23): while timing is stopped an entry that is not held is applied before the reply is filled (R45). -/
def submit (p : Port) (pl : List Byte) (s : State) : State :=
  if hasEntry s p then fillReply p .pending [] s
  else if outcomeUnread s p then fillReply p .noticeUnread [] s
  else if s.layout.staging.get p = [] ∧ (s.pal.records.get p).unpublished = false then fillReply p .empty [] s
  else if 1 < num8 pl 1 then fillReply p .range [] s
  else
    let t := builtEntry p (pl.getD 0 0#8) (decide (num8 pl 1 = 1)) s
    fillReply p .ok [] (applyIfStopped (enqueueEntry p t s))

def execSubmit (p : Port) (s : State) : Host.Outcome State Fault Refusal :=
  .next (takeRequest p .submit (submit p) s)

/-- A successful RECALL (R25). -/
def recallEntry (p : Port) (t : Transaction) (s : State) : State :=
  ((s.setStaging p t.edits).setRecord p .recalled).setQueue
    (s.layout.queue.filter fun e => !e.isTransactionOf p)

/-- RECALL (R25): answered by the submission record. -/
def recallTransaction (p : Port) (_pl : List Byte) (s : State) : State :=
  match s.layout.record.get p, findTransaction p s.layout.queue with
  | .queued, some t => fillReply p .ok (put8 t.edits.length) (recallEntry p t s)
  | .applied, _ => fillReply p .tooLate [] s
  | .noSubmit, _ => fillReply p .none [] s
  | .recalled, _ => fillReply p .none [] s
  | .queued, none => fillReply p .none [] s

def execRecall (p : Port) (s : State) : Host.Outcome State Fault Refusal :=
  .next (takeRequest p .recall (recallTransaction p) s)

/-- ABANDON (R22). -/
def abandon (p : Port) (_pl : List Byte) (s : State) : State :=
  if hasTransaction s p then fillReply p .pending [] s
  else fillReply p .ok (put8 (s.layout.staging.get p).length) (s.setStaging p [])

def execAbandon (p : Port) (s : State) : Host.Outcome State Fault Refusal :=
  .next (takeRequest p .abandon (abandon p) s)

end Sys2Proof.Machine
end

