-- ==== Sys2Proof/Machine/FrameStore.lean ====
section
/-! DEFINITION. The frame-store arbiter: FRAME_STORE_GRANT, PORT_ACCESS_COMPLETION, ROW_COMPLETION, LINE_FETCH_COMPLETION
(R67, R68, R94, R120). Bytes are read and written at the grant (log 15). -/

namespace Sys2Proof.Machine

/-- A waiting line fetch is granted; the turn is unchanged (R68). -/
def grantLineFetch (f : LineFetch) (s : State) : Host.Outcome State Fault Refusal :=
  if runInStore f.addr f.len then
    .next { s with arb := { s.arb with lineFetch := none, busy := some (.lineFetch f (s.bytesAt f.addr f.len)) } }
  else .fault .frameStoreRange

/-- The running job's row is granted and written whole; the turn becomes PORTS (R68, R92). -/
def grantRow (j : Job) (s : State) : Host.Outcome State Fault Refusal :=
  let w := rowWrite s j
  if runInStore w.1 w.2.length = true ∧ rowSourceInStore s j = true then
    .next
      { s with
        store := Memory.storeRun s.store w.1 w.2
        arb := { s.arb with turn := .ports, engineRow := false, busy := some (.engineRow false) } }
  else .fault .frameStoreRange

/-- The number of bytes a port access reaches. -/
def PortAccess.span (a : PortAccess) : Nat :=
  match a.op with
  | .write data => data.length
  | .read n => n

/-- The frame store after a port access is granted (R64). -/
def accessStore (s : State) (a : PortAccess) : Memory :=
  match a.op with
  | .write data => Memory.storeRun s.store a.addr data
  | .read _ => s.store

/-- The payload of the reply a port access will have (R64, R65). -/
def accessPayload (s : State) (a : PortAccess) : List Byte :=
  match a.op with
  | .write data => put16 data.length
  | .read n => s.bytesAt a.addr n

/-- The oldest port access is granted; the turn becomes ENGINE (R68). -/
def grantPort (a : PortAccess) (rest : List PortAccess) (s : State) : Host.Outcome State Fault Refusal :=
  if runInStore a.addr a.span then
    .next
      { s with
        store := accessStore s a
        arb :=
          { s.arb with
            turn := .engine, ports := rest, busy := some (.portAccess a.port a.status (accessPayload s a) true) } }
  else .fault .frameStoreRange

/-- The running job whose row access waits (R88). -/
def waitingRow (s : State) : Option Job := if s.arb.engineRow then runningJob s.engine.jobs else none

/-- FRAME_STORE_GRANT (R68): nothing is granted while an access is in service or when none waits. -/
def execFrameStoreGrant (s : State) : Host.Outcome State Fault Refusal :=
  match s.arb.busy with
  | some _ => .next s
  | none =>
    match s.arb.lineFetch with
    | some f => grantLineFetch f s
    | none =>
      match waitingRow s, s.arb.ports with
      | some j, [] => grantRow j s
      | some j, a :: rest =>
        match s.arb.turn with
        | .engine => grantRow j s
        | .ports => grantPort a rest s
      | none, a :: rest => grantPort a rest s
      | none, [] => .next s

/-- The frame store becomes free. -/
def freeStore (s : State) : State := { s with arb := { s.arb with busy := none } }

/-- PORT_ACCESS_COMPLETION (R64, R65, R152): the reply is filled, unless a port reset took the request away (R156). -/
def execPortAccessCompletion (s : State) : Host.Outcome State Fault Refusal :=
  match s.arb.busy with
  | some (.portAccess p st payload due) =>
    if due then .next (fillReply p st payload (freeStore s)) else .next (freeStore s)
  | some (.lineFetch _ _) | some (.engineRow _) | none => .next s

/-- The copy engine takes a row completion of its running job (R94, R97, R100). -/
def rowDone (j : Job) (s : State) : State :=
  let j' := { j with rowsDone := j.rowsDone + 1 }
  let s1 := s.setJobs (replaceJob j j' s.engine.jobs)
  match j.state with
  | .aborting => endJob j' (.jobAborted j.tag) s1
  | .running | .queued => if j'.rowsDone < j.h then postRow s1 else endJob j' (.jobDone j.tag) s1

/-- ROW_COMPLETION (R94); the completion of a row whose job DEVICE_RESET removed has no further effect (R106). -/
def execRowCompletion (s : State) : Host.Outcome State Fault Refusal :=
  match s.arb.busy with
  | some (.engineRow orphan) =>
    if orphan then .next (freeStore s)
    else
      match runningJob s.engine.jobs with
      | some j => .next (settleSessions (rowDone j (freeStore s)))
      | none => .next (freeStore s)
  | some (.lineFetch _ _) | some (.portAccess _ _ _ _) | none => .next s

/-- LINE_FETCH_COMPLETION (R120): the line's colours are fixed from the bytes read. -/
def execLineFetchCompletion (s : State) : Host.Outcome State Fault Refusal :=
  match s.arb.busy with
  | some (.lineFetch f bytes) => .next { freeStore s with scan := .fixed (fetchedColours f bytes) }
  | some (.engineRow _) | some (.portAccess _ _ _ _) | none => .next s

end Sys2Proof.Machine
end

