-- ==== Sys2Proof/Machine/Freshness.lean ====
section
/-! DEFINITION. TOUCH (R128). -/

namespace Sys2Proof.Machine

/-- The band numbers a TOUCH names: the positions set in its one-byte set (R128, R163). -/
def namedNumbers (set : Byte) : List (Fin 8) := (List.finRange 8).filter fun k => set.getLsbD k.val

/-- A band number names a band of the port in the active layout. -/
def namesBand (s : State) (p : Port) (n : Fin 8) : Bool := (findBand ⟨p, n⟩ s.layout.active.bands).isSome

/-- The record of a named band starts afresh (R128). -/
def touchRecord (p : Port) (ns : List (Fin 8)) (r : FreshRecord) : FreshRecord :=
  if r.key.owner = p ∧ r.key.number ∈ ns then { r with age := 0, mark := false } else r

/-- The touched bands whose mark was set (R128). -/
def clearedMarks (p : Port) (ns : List (Fin 8)) (rs : List FreshRecord) : Nat :=
  (rs.filter fun r => decide (r.key.owner = p) && decide (r.key.number ∈ ns) && r.mark).length

/-- TOUCH (R128). -/
def touch (p : Port) (pl : List Byte) (s : State) : State :=
  let ns := namedNumbers (pl.getD 0 0#8)
  if ns = [] then fillReply p .range [] s
  else
    let known := ns.filter (namesBand s p)
    let s1 := { s with fresh := { s.fresh with records := s.fresh.records.map (touchRecord p known) } }
    fillReply p .ok
      (put8 known.length ++ put8 (clearedMarks p known s.fresh.records) ++ put8 (ns.length - known.length)) s1

def execTouch (p : Port) (s : State) : Host.Outcome State Fault Refusal :=
  .next (takeRequest p .touch (touch p) s)

end Sys2Proof.Machine
end

