-- ==== Sys2Proof/Machine/Jobs.lean ====
section
/-! DEFINITION. JOB_FILL, JOB_COPY, JOB_CANCEL (R90, R91, R98). -/

namespace Sys2Proof.Machine

/-- A port's job with a tag, in any state (R90, R98). -/
def taggedJob (s : State) (p : Port) (tag : Byte) : Option Job :=
  s.engine.jobs.find? fun j => decide (j.owner = p) && decide (j.tag = tag)

/-- The number of jobs a port holds. -/
def jobCount (s : State) (p : Port) : Nat := (s.engine.jobs.filter fun j => decide (j.owner = p)).length

/-- A rectangle lies inside a surface and is not empty (R90, check 3). -/
def rectInside (e : SurfEntry) (x y w h : Nat) : Bool :=
  decide (1 ≤ w) && decide (1 ≤ h) && decide (x + w ≤ e.width) && decide (y + h ≤ e.height)

/-- Admission: the record at the tail of the queue with the next arrival number; started at once when no job runs (R91). -/
def admitJob (j : Job) (s : State) : State :=
  startNextJob { s with engine := { jobs := s.engine.jobs ++ [j], arrival := s.engine.arrival + 1#16 } }

/-- Checks 4 and 5 of R90, and the admission. -/
def offerJob (p : Port) (j : Job) (s : State) : State :=
  match taggedJob s p j.tag with
  | some k => fillReply p .duplicate [k.state.code] s
  | none =>
    if Config.maxJobs ≤ s.engine.jobs.length ∨ Config.maxJobsPerPort ≤ jobCount s p then
      fillReply p .busy (put8 s.engine.jobs.length ++ put8 (jobCount s p)) s
    else fillReply p .ok (put8 s.engine.jobs.length) (admitJob j s)

/-- JOB_FILL (R90, R91). Its direction is DOWN (R96). -/
def jobFill (p : Port) (pl : List Byte) (s : State) : State :=
  match ownLiveSurface s p (handleAt pl 1) with
  | none => fillReply p .noSurface [] s
  | some (h, e) =>
    if ¬ rectInside e (num16 pl 3) (num16 pl 5) (num16 pl 7) (num16 pl 9) ∨ 2 ^ e.depth.bits ≤ num16 pl 11 then
      fillReply p .range [] s
    else
      offerJob p
        { owner := p, tag := pl.getD 0 0#8, kind := .fill (num16 pl 11), dest := h, dx := num16 pl 3, dy := num16 pl 5,
          w := num16 pl 7, h := num16 pl 9, direction := .down, arrival := s.engine.arrival, state := .queued,
          rowsDone := 0, notify := true }
        s

def execJobFill (p : Port) (s : State) : Host.Outcome State Fault Refusal :=
  .next (takeRequest p .jobFill (jobFill p) s)

/-- The direction of a copy: UP within one surface when it moves downward (R96). -/
def copyDirection (src dst : Handle) (sy dy : Nat) : Direction := if src = dst ∧ sy < dy then .up else .down

/-- JOB_COPY (R90, R91). -/
def jobCopy (p : Port) (pl : List Byte) (s : State) : State :=
  match ownLiveSurface s p (handleAt pl 1), ownLiveSurface s p (handleAt pl 7) with
  | some (src, f), some (dst, e) =>
    if f.depth ≠ e.depth then fillReply p .badGeometry [] s
    else if ¬ rectInside e (num16 pl 9) (num16 pl 11) (num16 pl 13) (num16 pl 15) ∨
        ¬ rectInside f (num16 pl 3) (num16 pl 5) (num16 pl 13) (num16 pl 15) then
      fillReply p .range [] s
    else
      offerJob p
        { owner := p, tag := pl.getD 0 0#8, kind := .copy src (num16 pl 3) (num16 pl 5), dest := dst,
          dx := num16 pl 9, dy := num16 pl 11, w := num16 pl 13, h := num16 pl 15,
          direction := copyDirection src dst (num16 pl 5) (num16 pl 11), arrival := s.engine.arrival,
          state := .queued, rowsDone := 0, notify := true }
        s
  | none, _ => fillReply p .noSurface [] s
  | some _, none => fillReply p .noSurface [] s

def execJobCopy (p : Port) (s : State) : Host.Outcome State Fault Refusal :=
  .next (takeRequest p .jobCopy (jobCopy p) s)

/-- JOB_CANCEL (R98). -/
def jobCancel (p : Port) (pl : List Byte) (s : State) : State :=
  match taggedJob s p (pl.getD 0 0#8) with
  | none => fillReply p .noJob [] s
  | some j =>
    match j.state with
    | .queued => fillReply p .ok [0#8] (cancelJob j s)
    | .running => fillReply p .ok ([1#8] ++ put16 j.rowsDone) (beginAbort j s)
    | .aborting => fillReply p .ok ([1#8] ++ put16 j.rowsDone) s

def execJobCancel (p : Port) (s : State) : Host.Outcome State Fault Refusal :=
  .next (takeRequest p .jobCancel (jobCancel p) s)

end Sys2Proof.Machine
end

