-- ==== Sys2Proof/Machine/Notices.lean ====
section
/-! DEFINITION. NOTICE_READ and NOTICE_SUBSCRIBE (R181, R182). -/

namespace Sys2Proof.Machine

/-- NOTICE_READ (R181): the oldest notices are removed and returned with the lost flag, which is then cleared. -/
def noticeRead (p : Port) (pl : List Byte) (s : State) : State :=
  let n := num8 pl 0
  let nq := s.notices.get p
  if n = 0 ∨ 8 < n then fillReply p .range [] s
  else
    let taken := nq.queue.take n
    let s1 := s.setNotices p { nq with queue := nq.queue.drop n, lost := false }
    fillReply p .ok ([flagCode nq.lost, BitVec.ofNat 8 taken.length] ++ taken.flatMap Notice.record) s1

def execNoticeRead (p : Port) (s : State) : Host.Outcome State Fault Refusal :=
  .next (takeRequest p .noticeRead (noticeRead p) s)

/-- NOTICE_SUBSCRIBE (R182). -/
def noticeSubscribe (p : Port) (pl : List Byte) (s : State) : State :=
  let v := num8 pl 0
  if 1 < v then fillReply p .range [] s
  else
    let on := decide (v = 1)
    fillReply p .ok [flagCode on] (s.setNotices p { s.notices.get p with frameSub := on })

def execNoticeSubscribe (p : Port) (s : State) : Host.Outcome State Fault Refusal :=
  .next (takeRequest p .noticeSubscribe (noticeSubscribe p) s)

end Sys2Proof.Machine
end

