-- ==== Sys2Proof/Machine/Palette.lean ====
section
/-! DEFINITION. PAL_GRANT, PAL_RELEASE, PAL_SEEK, PAL_WRITE, PAL_READ (R75 to R83). -/

namespace Sys2Proof.Machine

/-- A grant as a reply carries it: base and size. -/
def putGrant (g : Grant) : List Byte := put16 g.base ++ put16 g.size

/-- The grant is made in one step: active and draft entries black, cursor (0, red), mark clear (R76). -/
def makeGrant (p : Port) (g : Grant) (s : State) : State :=
  { s with
    pal :=
      { active := mapRange g.base g.size (fun _ => Colour.black) s.pal.active
        draft := mapRange g.base g.size (fun _ => Colour.black) s.pal.draft
        records :=
          s.pal.records.set p { grant := some g, cursor := some { offset := 0, component := .red }, unpublished := false } } }

def palGrant (p : Port) (pl : List Byte) (s : State) : State :=
  let size := num16 pl 0
  if size ∉ grantSizes then fillReply p .range [] s
  else
    match grantOf s p with
    | some g => fillReply p .held (putGrant g) s
    | none =>
      match findBase s size with
      | none => fillReply p .noSpace (put16 (largestGrant s)) s
      | some base => fillReply p .ok (putGrant ⟨base, size⟩) (makeGrant p ⟨base, size⟩ s)

def execPalGrant (p : Port) (s : State) : Host.Outcome State Fault Refusal :=
  .next (takeRequest p .palGrant (palGrant p) s)

/-- A band of the active layout owned by the port is a surface band of an indexed depth (R77, check 3). -/
def showsIndexed (s : State) (p : Port) : Bool :=
  s.layout.active.bands.any fun b =>
    decide (b.key.owner = p) &&
      match b.part with
      | .surface h _ _ => decide ((s.alloc.table.get h.index).depth ≠ .d16)
      | .fill _ => false

def palRelease (p : Port) (_pl : List Byte) (s : State) : State :=
  if hasTransaction s p then fillReply p .inUse [] s
  else
    match grantOf s p with
    | none => fillReply p .noGrant [] s
    | some g =>
      if showsIndexed s p then fillReply p .inUse [] s
      else fillReply p .ok (putGrant g) (s.setPalRecord p PalRecord.absent)

def execPalRelease (p : Port) (s : State) : Host.Outcome State Fault Refusal :=
  .next (takeRequest p .palRelease (palRelease p) s)

/-- The reply to PAL_SEEK, PAL_WRITE or PAL_READ: what the request's own rule lists, then the cursor as it stands (R80; log 11). -/
def fillCursorReply (p : Port) (st : Status) (payload : List Byte) (s : State) : State :=
  fillReply p st (payload ++ putCursor (s.pal.records.get p).cursor) s

/-- The two refusals that PAL_SEEK, PAL_WRITE and PAL_READ share (R81), and the request beyond them. -/
def withGrant (p : Port) (s : State) (act : Grant → State) : State :=
  if hasTransaction s p then fillCursorReply p .pending [] s
  else
    match grantOf s p with
    | none => fillCursorReply p .noGrant [] s
    | some g => act g

/-- The cursor of a port that holds a grant; a port of an OPEN session has one whenever it holds a grant (R79). -/
def cursorOf (s : State) (p : Port) (g : Grant) : Cursor :=
  match (s.pal.records.get p).cursor with
  | some c => c
  | none => { offset := g.size, component := .red }

/-- Move a port's cursor. -/
def setCursor (p : Port) (c : Cursor) (s : State) : State :=
  s.setPalRecord p { s.pal.records.get p with cursor := some c }

def palSeek (p : Port) (pl : List Byte) (s : State) : State :=
  withGrant p s fun g =>
    if num8 pl 0 < g.size then
      fillCursorReply p .ok [] (setCursor p { offset := num8 pl 0, component := .red } s)
    else fillCursorReply p .range [] s

def execPalSeek (p : Port) (s : State) : Host.Outcome State Fault Refusal :=
  .next (takeRequest p .palSeek (palSeek p) s)

/-- One draft component stored (R82): the low six bits of the byte. -/
def storeComponent (a : Vector Colour 256) (n : Nat) (k : Component) (b : Byte) : Vector Colour 256 :=
  if h : n < 256 then a.set n (Colour.withComponent (a.get ⟨n, h⟩) k (b.setWidth 6)) h else a

/-- The bytes of a PAL_WRITE taken in order while the cursor is not parked (R82): the draft array, the cursor and the count. -/
def storeComponents (g : Grant) : List Byte → Vector Colour 256 → Cursor → Nat → Vector Colour 256 × Cursor × Nat
  | [], a, c, n => (a, c, n)
  | b :: rest, a, c, n =>
    if c.parked g.size then (a, c, n)
    else storeComponents g rest (storeComponent a (g.base + c.offset) c.component b) (c.advance g.size) (n + 1)

def palWrite (p : Port) (pl : List Byte) (s : State) : State :=
  withGrant p s fun g =>
    if pl.length = 0 ∨ 240 < pl.length then fillCursorReply p .range (put16 0) s
    else
      let (a, c, n) := storeComponents g pl s.pal.draft (cursorOf s p g) 0
      let r := s.pal.records.get p
      let s1 :=
        { s with
          pal :=
            { s.pal with
              draft := a
              records := s.pal.records.set p { r with cursor := some c, unpublished := r.unpublished || decide (0 < n) } } }
      fillCursorReply p (if n = pl.length then .ok else .range) (put16 n) s1

def execPalWrite (p : Port) (s : State) : Host.Outcome State Fault Refusal :=
  .next (takeRequest p .palWrite (palWrite p) s)

/-- The bytes of a PAL_READ, and the cursor after them (R83). -/
def readComponents (g : Grant) (a : Vector Colour 256) : Nat → Cursor → List Byte × Cursor
  | 0, c => ([], c)
  | n + 1, c =>
    if c.parked g.size then ([], c)
    else
      let (bs, c') := readComponents g a n (c.advance g.size)
      ((Colour.component (entryAt a (g.base + c.offset)) c.component).setWidth 8 :: bs, c')

def palRead (p : Port) (pl : List Byte) (s : State) : State :=
  withGrant p s fun g =>
    let count := num8 pl 0
    if count = 0 ∨ 240 < count then fillCursorReply p .range [] s
    else
      let (bs, c) := readComponents g s.pal.draft count (cursorOf s p g)
      fillCursorReply p (if bs.length = count then .ok else .range) bs (setCursor p c s)

def execPalRead (p : Port) (s : State) : Host.Outcome State Fault Refusal :=
  .next (takeRequest p .palRead (palRead p) s)

end Sys2Proof.Machine
end

