-- ==== Sys2Proof/Machine/Panel.lean ====
section
/-! DEFINITION. The timing events: LINE_START, FRAME_START, VBLANK_START, TIMING_STOPPED, BACK_PORCH_START, DISPLAY_PART_START,
LEAD_COUNT_REACHED, TAIL_COUNT_REACHED (R109 to R120, R140, R143). A command whose boundary is not at hand changes nothing (log 2). -/

namespace Sys2Proof.Machine

/-- LINE_START (R110, R120): the line position advances; a display line is sourced. -/
def execLineStart (s : State) : Host.Outcome State Fault Refusal :=
  if atPlainLine s then
    let n := s.timing.line + 1
    let s1 := { s with timing := { s.timing with line := n, part := .sync } }
    if n < s.timing.active.vdl then .next (sourceLine n s1) else .next { s1 with scan := .none }
  else .next s

/-- FRAME_START is taken at the end of a frame with no stop pending (R110, R113). -/
def frameStartDue (s : State) : Bool := atFrameEnd s && !s.timing.stopPending

/-- FRAME_START as one event: the generator, the freshness monitor and scan-out (R113). -/
def takeFrameStart (s : State) : State :=
  let (s1, stale) := beginFrame s
  deliver stale s1

def execFrameStart (s : State) : Host.Outcome State Fault Refusal :=
  if frameStartDue s then .next (takeFrameStart s) else .next s

/-- The next FRAME_START marks the band of a key (R125). -/
def willMark (s : State) (k : BandKey) : Bool :=
  s.fresh.records.any fun r => decide (r.key = k) && marksNow s.layout.active.bands r

/-- BAND_MARKED_STALE (R125; log 3): the FRAME_START at which the band's age reaches its stale limit. -/
def execBandMarkedStale (k : BandKey) (s : State) : Host.Outcome State Fault Refusal :=
  if frameStartDue s = true ∧ willMark s k = true then .next (takeFrameStart s) else .next s

/-- The FRAME postings of a VBLANK_START: to each OPEN session whose subscription is on (R182). -/
def framePostings (s : State) (n : BitVec 16) : List Posting :=
  (Port.all.filter fun p => decide ((s.sessions.get p).state = .opened) && (s.notices.get p).frameSub).map
    fun p => (p, .frame n)

/-- The generator's part of VBLANK_START: line VDL begins and the frame number rises (R114). -/
def generatorVblank (s : State) : State :=
  { s with
    timing :=
      { s.timing with
        frameNumber := s.timing.frameNumber + 1#16, period := .nonDisplay, line := s.timing.line + 1, part := .sync }
    scan := .none }

/-- VBLANK_START as one event: the generator, then the layout controller, the power sequencer and the notice block, whose notices
reach the queues in an order left open (R28, R114, R179). -/
def takeVblank (s : State) : State :=
  let s1 := generatorVblank s
  let (s2, outcomes) := applicationPass s1
  let step := powerVblank s2
  settleSessions (deliverAny outcomes step.posts (framePostings s1 s1.timing.frameNumber) step.state)

def execVblankStart (s : State) : Host.Outcome State Fault Refusal :=
  if atVblank s then .next (takeVblank s) else .next s

/-- LEAD_COUNT_REACHED (R140; log 3): the VBLANK_START that brings the lead count to its target. -/
def execLeadCountReached (s : State) : Host.Outcome State Fault Refusal :=
  if atVblank s = true ∧ s.power.state = .logicLead ∧ s.power.stopRequested = false ∧ countReaches s = true then
    .next (takeVblank s)
  else .next s

/-- TAIL_COUNT_REACHED (R143; log 3): the VBLANK_START that brings the tail count to its target. -/
def execTailCountReached (s : State) : Host.Outcome State Fault Refusal :=
  if atVblank s = true ∧ s.power.state = .logicTail ∧ s.power.stopRequested = false ∧ countReaches s = true then
    .next (takeVblank s)
  else .next s

/-- The generator's part of TIMING_STOPPED (R117). -/
def generatorStop (s : State) : State :=
  { s with timing := { s.timing with run := .stopped, stopPending := false }, scan := .none }

/-- TIMING_STOPPED as one event: the generator stops, the layout controller completes its pass, then the sequencer's start, if it
makes one, is acted on (R46, R112, R117, R144). -/
def takeTimingStopped (s : State) : State :=
  let (s2, outcomes) := applicationPass (generatorStop s)
  settleSessions (finishPower outcomes (powerStopped s2))

def execTimingStopped (s : State) : Host.Outcome State Fault Refusal :=
  if atFrameEnd s = true ∧ s.timing.stopPending = true then .next (takeTimingStopped s) else .next s

/-- BACK_PORCH_START (R109): the sync part ends. -/
def execBackPorchStart (s : State) : Host.Outcome State Fault Refusal :=
  if s.timing.run = .running ∧ s.timing.part = .sync then
    .next { s with timing := { s.timing with part := .backPorch } }
  else .next s

/-- DISPLAY_PART_START (R109, R120): the display part begins. A line fetch is complete before it (R67; log 12). -/
def execDisplayPartStart (s : State) : Host.Outcome State Fault Refusal :=
  if s.timing.run = .running ∧ s.timing.part = .backPorch ∧ s.scan ≠ .awaiting then
    .next { s with timing := { s.timing with part := .display } }
  else .next s

end Sys2Proof.Machine
end

