-- ==== Sys2Proof/Machine/Power.lean ====
section
/-! DEFINITION. VOTE, SUP_INHIBIT, SUP_POWER_TIMES (R135 to R137). -/

namespace Sys2Proof.Machine

/-- The vote a VOTE request carries (R135, R160). -/
def voteOf : Nat → Option Vote
  | 0 => some .off
  | 1 => some .on
  | _ => none

/-- VOTE (R135): the reply reports the vote, demand and the power state as they stand after. -/
def vote (p : Port) (pl : List Byte) (s : State) : State :=
  match voteOf (num8 pl 0) with
  | none => fillReply p .range [] s
  | some v =>
    let s1 := changeVote p (some v) s
    fillReply p .ok [v.code, flagCode (demand s1), s1.power.state.code] s1

def execVote (p : Port) (s : State) : Host.Outcome State Fault Refusal :=
  .next (takeRequest p .vote (vote p) s)

/-- The sequencer makes the inhibit as carried, and acts on its clearing in LOGIC_HELD (R136, R142). -/
def changeInhibit (v : Bool) (s : State) : State :=
  let s1 := { s with power := { s.power with inhibit := v } }
  if s.power.inhibit = true ∧ v = false ∧ s.power.state = .logicHeld ∧ demand s = true then
    finishPower [] (enterLead s1)
  else s1

/-- SUP_INHIBIT (R136). -/
def supInhibit (p : Port) (pl : List Byte) (s : State) : State :=
  if 1 < num8 pl 0 then fillReply p .range [] s
  else
    let s1 := changeInhibit (decide (num8 pl 0 = 1)) s
    fillReply p .ok [flagCode s1.power.inhibit, s1.power.state.code] s1

def execSupInhibit (p : Port) (s : State) : Host.Outcome State Fault Refusal :=
  .next (takeRequest p .supInhibit (supInhibit p) s)

/-- SUP_POWER_TIMES (R137): a count in progress keeps its target. -/
def supPowerTimes (p : Port) (pl : List Byte) (s : State) : State :=
  if num8 pl 1 = 0 then fillReply p .range [] s
  else
    fillReply p .ok (put8 (num8 pl 0) ++ put8 (num8 pl 1))
      { s with power := { s.power with lead := num8 pl 0, tail := num8 pl 1 } }

def execSupPowerTimes (p : Port) (s : State) : Host.Outcome State Fault Refusal :=
  .next (takeRequest p .supPowerTimes (supPowerTimes p) s)

end Sys2Proof.Machine
end

