-- ==== Sys2Proof/Machine/Links.lean ====
section
/-! DEFINITION. Pins and windows: POWER_ON_RESET, RSTN_FALL, RSTN_RISE, REQUEST_WINDOW_CLOSE, FETCH_WINDOW_OPEN,
FETCH_WINDOW_CLOSE, PORT_RESET (R147 to R156, R165). -/

namespace Sys2Proof.Machine

/-- POWER_ON_RESET (R165): every block in its power-on state, the straps latched; RSTn and CSn stay at the levels of their
pins. -/
def execPowerOnReset (supv : Port) (preset : Fin 4) (s : State) : Host.Outcome State Fault Refusal :=
  .next (State.powerOn supv preset (s.links.map Link.pins) (s.powerOns + 1) s.draws s.pending)

/-- RSTN_FALL (R156, R171): a falling edge is a port reset, and the link is held while the pin is low. -/
def execRstnFall (p : Port) (s : State) : Host.Outcome State Fault Refusal :=
  let l := s.links.get p
  if l.rstLow then .next s else .next (portResetAt p (s.setLink p { l with rstLow := true }))

/-- RSTN_RISE (R156): the link is no longer held. -/
def execRstnRise (p : Port) (s : State) : Host.Outcome State Fault Refusal :=
  .next (s.setLink p { s.links.get p with rstLow := false })

/-- The window is examined: the link is not held and CSn is not low in a fetch window, and the window has a whole byte that is not the
fetch lead (R147, R156). -/
def windowTaken (l : Link) (held : Bool) (bs : List Byte) : Bool :=
  !l.rstLow && !held && !l.csLow && !bs.isEmpty && (bs.getD 0 0#8 != Config.fetchLead)

/-- The link shifts out 0x00 for every byte of a request window (R147). -/
def shiftZeros (p : Port) (n : Nat) (s : State) : State :=
  s.setLink p { s.links.get p with sdo := List.replicate n 0#8 }

/-- The number of whole bytes received, counted up to 65535 (R150). -/
def receivedCount (bs : List Byte) : Nat := min bs.length 65535

/-- The link takes a request for work: any reply in the slot is discarded, and it enters EXECUTING (R150). -/
def acceptWork (p : Port) (k : Kind) (epoch seq : Byte) (payload : List Byte) (s : State) : State :=
  s.setLink p
    { s.links.get p with
      state := .executing
      slot := none
      execSeq := seq
      work := some { kind := k, epoch := epoch, payload := payload, posted := false } }

/-- A frame that closes in READY or REPLY_READY (R150). -/
def takeFrame (p : Port) (bs : List Byte) (s : State) : State :=
  match examineFrame bs with
  | .badFrame cause seq =>
    putReply (attentionPending s p) p seq .badFrame (cause.code :: put16 (receivedCount bs)) s
  | .badKind code seq => putReply (attentionPending s p) p seq .badKind [code] s
  | .portReset _ => portResetAt p s
  | .request k epoch seq payload => acceptWork p k epoch seq payload s

/-- A frame that closes in EXECUTING: dropped, with the overrun flag set, unless it is a well-formed PORT_RESET (R151). -/
def dropFrame (p : Port) (bs : List Byte) (s : State) : State :=
  match examineFrame bs with
  | .portReset _ => portResetAt p s
  | .badFrame _ _ | .badKind _ _ | .request _ _ _ _ => s.setLink p { s.links.get p with overrun := true }

/-- REQUEST_WINDOW_CLOSE (R147, R150, R151). `held` says that a low RSTn or a low PORn overlapped the window. R156 has such a window
ignored for RSTn; for PORn, where R165 says only that no window is taken while it is low, that is the model's choice (log 31). -/
def execRequestWindowClose (p : Port) (held : Bool) (bits : List Bool) (s : State) :
    Host.Outcome State Fault Refusal :=
  let l := s.links.get p
  let bs := bytesOfBits bits
  if windowTaken l held bs then
    let s1 := shiftZeros p bs.length s
    match l.state with
    | .executing => .next (dropFrame p bs s1)
    | .ready | .replyReady => .next (takeFrame p bs s1)
  else .next s

/-- A bare reply, six bytes long, with the flags as they stand (R153). -/
def bareReply (s : State) (p : Port) (st : Status) (seq : Byte) : Reply :=
  { status := st, seq := seq, overrun := (s.links.get p).overrun, attention := attentionPending s p, payload := [] }

/-- The reply a fetch window shifts out, chosen by the link state at its opening, and whether it is the one in the slot (R153). -/
def chooseReply (s : State) (p : Port) : Reply × Bool :=
  let l := s.links.get p
  match l.state, l.slot with
  | .replyReady, some r => (r, true)
  | .executing, _ => (bareReply s p .pending l.execSeq, false)
  | .ready, _ => (bareReply s p .noReply 0#8, false)
  | .replyReady, none => (bareReply s p .noReply 0#8, false)

/-- FETCH_WINDOW_OPEN (R153): CSn is low. A held link ignores the window (R156), and where CSn is low already none opens (log 27). -/
def execFetchWindowOpen (p : Port) (s : State) : Host.Outcome State Fault Refusal :=
  let l := s.links.get p
  if l.rstLow ∨ l.csLow then .next (s.setLink p { l with csLow := true })
  else
    let c := chooseReply s p
    .next (s.setLink p { l with window := some { reply := c.1, fromSlot := c.2 }, progress := 0, csLow := true })

/-- The bytes on SDO in a fetch window of `edges` clocks beyond the lead byte: 0x00 during the lead byte, then the reply, then 0x00
(R147). -/
def shiftedOut (reply : List Byte) (n : Nat) : List Byte :=
  0#8 :: (reply.take n ++ List.replicate (n - reply.length) 0#8)

/-- The link shifts n more bytes out in a fetch window: the fetch progress counts those of the reply (R149, R153). -/
def shiftReply (w : FetchWindow) (n : Nat) (l : Link) : Link :=
  { l with
    sdo := shiftedOut w.reply.bytes (l.progress + n)
    progress := min (l.progress + n) w.reply.bytes.length }

/-- A fetch window ends, CSn high: a reply of the slot that was shifted out whole, its CRC byte included, is consumed, and the fetch
progress returns to 0 (R147, R153). -/
def endFetch (w : FetchWindow) (l : Link) : Link :=
  let ended := { l with window := none, progress := 0, csLow := false }
  if w.fromSlot = true ∧ w.reply.bytes.length ≤ l.progress then { ended with state := .ready, slot := none } else ended

/-- FETCH_WINDOW_CLOSE (R153): CSn rises; `edges` SCK rising edges followed the lead byte (log 20). A window that the link ignores, for
a low RSTn or PORn overlapped it, changes nothing else (R156; log 31). -/
def execFetchWindowClose (p : Port) (edges : Nat) (s : State) : Host.Outcome State Fault Refusal :=
  let l := s.links.get p
  match l.window with
  | none => .next (s.setLink p { l with csLow := false })
  | some w => .next (s.setLink p (endFetch w (shiftReply w (edges / 8) l)))

/-- PORT_RESET (R151, R156): a well-formed PORT_RESET frame in any link state. -/
def execPortReset (p : Port) (payload : List Byte) (s : State) : Host.Outcome State Fault Refusal :=
  let l := s.links.get p
  if l.rstLow ∨ l.csLow ∨ Config.maxRequestPayload < payload.length then .next s
  else .next (portResetAt p (shiftZeros p (6 + payload.length) s))

end Sys2Proof.Machine
end

