-- ==== Sys2Proof/Machine/Sessions.lean ====
section
/-! DEFINITION. The session manager's requests: IDENTIFY, OPEN, CLOSE, DEVICE_RESET, SUP_EVICT_SESSION (R158, R166 to R178). -/

namespace Sys2Proof.Machine

/-- IDENTIFY (R158): changes no state; the reply's fields in the rule's order. -/
def identify (p : Port) (_pl : List Byte) (s : State) : State :=
  let x := s.sessions.get p
  fillReply p .ok
    (put16 Config.partCode ++ put8 Config.revision ++
      [portByte p, portByte s.supv, x.state.code, x.epoch, BitVec.ofNat 8 s.preset.val])
    s

def execIdentify (p : Port) (s : State) : Host.Outcome State Fault Refusal :=
  .next (takeRequest p .identify (identify p) s)

/-- The epoch after the next opening: 1 after 0 and after 255 (R167). -/
def nextEpoch (e : Byte) : Byte := if e = 255#8 then 1#8 else e + 1#8

/-- OPEN (R168, R169). -/
def openSession (p : Port) (pl : List Byte) (s : State) : State :=
  let x := s.sessions.get p
  match x.state with
  | .opened => fillReply p .sessionOpen (x.epoch :: putLabel x.label) s
  | .closing => fillReply p .busy [x.epoch] s
  | .idle =>
    let x1 : Session :=
      { state := .opened, epoch := nextEpoch x.epoch, label := some (labelAt pl), withdrawalPending := false,
        surfacesPending := false }
    let s1 := ((s.setSession p x1).setVote p (some .off)).setRecord p .noSubmit
    fillReply p .ok [nextEpoch x.epoch, flagCode (decide (p = s.supv))] s1

def execOpenSession (p : Port) (s : State) : Host.Outcome State Fault Refusal :=
  .next (takeRequest p .openSession (openSession p) s)

/-- CLOSE (R170): the reply is filled first; the teardown follows within the same event. -/
def closeSession (p : Port) (_pl : List Byte) (s : State) : State :=
  teardown p (fillReply p .ok [(s.sessions.get p).epoch] s)

def execCloseSession (p : Port) (s : State) : Host.Outcome State Fault Refusal :=
  .next (takeRequest p .closeSession (closeSession p) s)

/-! ### DEVICE_RESET (R177) -/

/-- A surface-table entry made FREE by DEVICE_RESET keeps its generation (R71). -/
def clearEntry (e : SurfEntry) : SurfEntry := { e with state := .free, pendingAbort := false }

/-- The layout controller and the freshness monitor take DEVICE_RESET (R13, R18, R24, R26, R133): the timing parameters and the
published stale set are kept. -/
def resetLayout (s : State) : State :=
  { s with
    layout :=
      { active :=
          { bands := [], background := Colour.black, staleColour := Colour.stalePowerOn,
            regions := PerPort.every Region.whole, timing := s.layout.active.timing }
        staging := PerPort.every []
        queue := []
        record := PerPort.every .noSubmit }
    fresh := { s.fresh with records := [] } }

/-- The surface allocator takes DEVICE_RESET (R71): generations and the frame store are kept. -/
def resetAllocator (s : State) : State :=
  { s with
    alloc :=
      { table := s.alloc.table.map clearEntry
        free := [{ start := 0, length := Config.blocks }]
        charge := PerPort.every 0
        quota := PerPort.every Config.defaultQuota
        withdrawalOut := PerPort.every false
        reportOwed := PerPort.every false } }

/-- An engine row in service when its job is removed by DEVICE_RESET runs to its end for no job (R106). -/
def orphanRow : Option Service → Option Service
  | some (.engineRow _) => some (.engineRow true)
  | some (.lineFetch f bs) => some (.lineFetch f bs)
  | some (.portAccess p st pl due) => some (.portAccess p st pl due)
  | none => none

/-- The copy engine and the arbiter's turn take DEVICE_RESET (R71, R106): a waiting row is withdrawn. -/
def resetEngine (s : State) : State :=
  { s with
    engine := CopyEngine.powerOn
    arb := { s.arb with turn := .ports, engineRow := false, busy := orphanRow s.arb.busy } }

/-- The palette takes DEVICE_RESET (R87): both arrays are kept. -/
def resetPalette (s : State) : State := { s with pal := { s.pal with records := PerPort.every PalRecord.absent } }

/-- Every session record becomes IDLE, its epoch kept, and every notice queue is cleared (R177, R184). -/
def resetSessions (s : State) : State :=
  { s with
    sessions :=
      s.sessions.map fun x =>
        { x with state := .idle, label := none, withdrawalPending := false, surfacesPending := false }
    notices := PerPort.every NoticeQueue.cleared }

/-- The waiting port accesses are discarded and answered NO_SESSION (R69, R71, R157). The reset ends every session at once (R177), so
these are replies of ports without an open session, and they carry the attention-pending flag at 0 (R164; log 8). -/
def discardAll (s : State) : State := Port.all.foldl (fun t p => discardAccess false p t) s

/-- DEVICE_RESET (R177): every block takes the reset, the timing generator and the links keep their state, and the supervisor's reply
is filled after. -/
def deviceReset (p : Port) (_pl : List Byte) (s : State) : State :=
  let s1 := resetSessions (resetPalette (resetEngine (resetAllocator (resetLayout (discardAll s)))))
  fillReply p .ok [] (finishPower [] (powerDeviceReset s1))

def execDeviceReset (p : Port) (s : State) : Host.Outcome State Fault Refusal :=
  .next (takeRequest p .deviceReset (deviceReset p) s)

/-- SUP_EVICT_SESSION (R172): the reply is filled after the teardown event. -/
def supEvictSession (p : Port) (pl : List Byte) (s : State) : State :=
  match Port.ofNat? (num8 pl 0) with
  | none => fillReply p .range [] s
  | some q =>
    let x := s.sessions.get q
    if q = s.supv then fillReply p .range [] s
    else
      match x.state with
      | .idle => fillReply p .none [SessionState.idle.code] s
      | .closing => fillReply p .none [SessionState.closing.code] s
      | .opened =>
        let s1 := teardown q s
        fillReply p .ok (x.epoch :: putLabel x.label ++ [(s1.sessions.get q).state.code]) s1

def execSupEvictSession (p : Port) (s : State) : Host.Outcome State Fault Refusal :=
  .next (takeRequest p .supEvictSession (supEvictSession p) s)

end Sys2Proof.Machine
end

