-- ==== Sys2Proof/Machine/Surfaces.lean ====
section
/-! DEFINITION. SURF_ALLOC, SURF_FREE, SURF_INFO, PIX_WRITE, PIX_READ, SUP_QUOTA (R54 to R66). -/

namespace Sys2Proof.Machine

/-! ### SURF_ALLOC (R54, R55) -/

/-- The geometry a SURF_ALLOC asks for, when check 1 of R54 passes. -/
def askedGeometry (pl : List Byte) : Option (Nat × Nat × Depth) :=
  let w := num16 pl 0
  let h := num16 pl 2
  match Depth.ofNat? (num8 pl 4) with
  | none => none
  | some d => if 8 ≤ w ∧ w ≤ 2048 ∧ 1 ≤ h ∧ h ≤ 1024 then some (w, h, d) else none

/-- The surface is made in one step (R55). -/
def makeSurface (p : Port) (w h : Nat) (d : Depth) (i : Fin 32) (first : Nat) (fs : List Extent) (s : State) : State :=
  let n := blocksOf (strideOf w d) h
  let e : SurfEntry :=
    { state := .live, gen := (s.alloc.table.get i).gen + 1#8, owner := p, width := w, height := h, depth := d,
      stride := strideOf w d, firstBlock := first, blockCount := n, pendingAbort := false }
  { s with
    alloc :=
      { s.alloc with
        table := s.alloc.table.set i.val e i.isLt
        free := fs
        charge := s.alloc.charge.set p (s.alloc.charge.get p + n) } }

/-- The checks of R54 in order, and the allocation of R55. -/
def surfAlloc (p : Port) (pl : List Byte) (s : State) : State :=
  match askedGeometry pl with
  | none => fillReply p .badGeometry (put16 0) s
  | some (w, h, d) =>
    let n := blocksOf (strideOf w d) h
    if Config.blocks < n then fillReply p .badGeometry (put16 n) s
    else
      match lowestFree s.alloc.table with
      | none => fillReply p .tableFull [] s
      | some i =>
        if s.alloc.quota.get p < s.alloc.charge.get p + n then
          fillReply p .quota (put16 (s.alloc.charge.get p) ++ put16 (s.alloc.quota.get p)) s
        else
          match takeRun n s.alloc.free with
          | none => fillReply p .noSpace (put16 (longestExtent s.alloc.free)) s
          | some (first, fs) =>
            let s1 := makeSurface p w h d i first fs s
            fillReply p .ok
              (putHandle ⟨i, (s1.alloc.table.get i).gen⟩ ++ put16 (strideOf w d) ++ put16 first ++ put16 n) s1

def execSurfAlloc (p : Port) (s : State) : Host.Outcome State Fault Refusal :=
  .next (takeRequest p .surfAlloc (surfAlloc p) s)

/-! ### SURF_FREE (R58, R59) -/

/-- A band part names a handle: both index and generation equal (R58). -/
def BandPart.names (part : BandPart) (h : Handle) : Bool :=
  match part with
  | .surface g _ _ => decide (g = h)
  | .fill _ => false

/-- A band of the active layout names the handle (R58, check 2). -/
def shownSurface (s : State) (h : Handle) : Bool := s.layout.active.bands.any fun b => b.part.names h

/-- An edit is a BAND_PUT whose surface part names the handle, or a BAND_SURFACE naming it (R58, check 3). -/
def Edit.names (e : Edit) (h : Handle) : Bool :=
  match e with
  | .bandPut b => b.part.names h
  | .bandSurface _ g => decide (g = h)
  | .bandDrop _ | .bandView _ _ _ | .setTiming _ | .setRegion _ _ | .setBackground _ | .setStaleColour _
  | .evictBand _ => false

/-- The port's TRANSACTION entry names the handle (R58, check 3). -/
def submittedSurface (s : State) (p : Port) (h : Handle) : Bool :=
  match findTransaction p s.layout.queue with
  | some t => t.edits.any fun e => e.names h
  | none => false

/-- The QUEUED jobs that name a surface (R101). -/
def queuedNaming (s : State) (h : Handle) : List Job :=
  s.engine.jobs.filter fun j => decide (j.state = .queued) && j.names h

/-- The surface is released: queued jobs that name it are cancelled; then it is FREE at once, or RETIRING while the running job that
names it is aborted (R59, R101). -/
def releaseSurface (p : Port) (h : Handle) (s : State) : State :=
  let doomed := queuedNaming s h
  let s1 := doomed.foldl (fun t j => cancelJob j t) s
  let running := (runningJob s1.engine.jobs).filter fun j => j.names h
  match running with
  | none => fillReply p .ok [0#8, BitVec.ofNat 8 doomed.length] (freeSurface h.index s1)
  | some j =>
    let s2 := beginAbort j s1
    let s3 := s2.setEntry h.index { s2.alloc.table.get h.index with state := .retiring }
    fillReply p .ok [1#8, BitVec.ofNat 8 doomed.length] s3

def surfFree (p : Port) (pl : List Byte) (s : State) : State :=
  match ownLiveSurface s p (handleAt pl 0) with
  | none => fillReply p .noSurface [] s
  | some (h, _) =>
    if shownSurface s h ∨ submittedSurface s p h then fillReply p .inUse [] s
    else releaseSurface p h s

def execSurfFree (p : Port) (s : State) : Host.Outcome State Fault Refusal :=
  .next (takeRequest p .surfFree (surfFree p) s)

/-! ### SURF_INFO (R63) -/

/-- The port's charge and quota as a reply carries them. -/
def chargeAndQuota (s : State) (p : Port) : List Byte :=
  put16 (s.alloc.charge.get p) ++ put16 (s.alloc.quota.get p)

/-- The LIVE or RETIRING surface of the port that a handle on the link names. -/
def ownNamedSurface (s : State) (p : Port) (h : Option Handle) : Option SurfEntry :=
  match h with
  | none => none
  | some h =>
    match namedSurface s.alloc.table h with
    | some e => if e.owner = p then some e else none
    | none => none

/-- The fields of an entry in a SURF_INFO reply (R63). -/
def putEntry (e : SurfEntry) : List Byte :=
  [e.state.code, e.gen] ++ put16 e.width ++ put16 e.height ++ put8 e.depth.bits ++ put16 e.stride ++
    put16 e.firstBlock ++ put16 e.blockCount ++ [flagCode e.pendingAbort]

def surfInfo (p : Port) (pl : List Byte) (s : State) : State :=
  match ownNamedSurface s p (handleAt pl 0) with
  | some e => fillReply p .ok (putEntry e ++ chargeAndQuota s p) s
  | none => fillReply p .noSurface (chargeAndQuota s p) s

def execSurfInfo (p : Port) (s : State) : Host.Outcome State Fault Refusal :=
  .next (takeRequest p .surfInfo (surfInfo p) s)

/-! ### PIX_WRITE and PIX_READ (R64, R65) -/

/-- A pixel access is posted to the arbiter, behind the accesses that arrived before it; its request stays in work (R64, R68). -/
def postAccess (a : PortAccess) (s : State) : State :=
  let l := s.links.get a.port
  { s.setLink a.port { l with work := l.work.map fun w => { w with posted := true } } with
    arb := { s.arb with ports := s.arb.ports ++ [a] } }

/-- How many of n bytes from an offset lie in a surface (R64). -/
def reached (e : SurfEntry) (offset n : Nat) : Nat := min n (e.size - offset)

/-- OK when every byte lies in the surface, RANGE when the access was shortened (R64, R65). -/
def reachStatus (e : SurfEntry) (offset n : Nat) : Status := if offset + n ≤ e.size then .ok else .range

def pixWrite (p : Port) (pl : List Byte) (s : State) : State :=
  match ownLiveSurface s p (handleAt pl 0) with
  | none => fillReply p .noSurface [] s
  | some (_, e) =>
    let offset := num24 pl 2
    let data := pl.drop 5
    let n := reached e offset data.length
    if n = 0 then fillReply p .range (put16 0) s
    else
      postAccess
        { port := p, addr := e.addr offset, op := .write (data.take n), status := reachStatus e offset data.length } s

def execPixWrite (p : Port) (s : State) : Host.Outcome State Fault Refusal :=
  .next (takeRequest p .pixWrite (pixWrite p) s)

def pixRead (p : Port) (pl : List Byte) (s : State) : State :=
  match ownLiveSurface s p (handleAt pl 0) with
  | none => fillReply p .noSurface [] s
  | some (_, e) =>
    let offset := num24 pl 2
    let count := num16 pl 5
    let n := reached e offset count
    if 256 < count ∨ n = 0 then fillReply p .range [] s
    else postAccess { port := p, addr := e.addr offset, op := .read n, status := reachStatus e offset count } s

def execPixRead (p : Port) (s : State) : Host.Outcome State Fault Refusal :=
  .next (takeRequest p .pixRead (pixRead p) s)

/-! ### SUP_QUOTA (R66) -/

def supQuota (p : Port) (pl : List Byte) (s : State) : State :=
  match Port.ofNat? (num8 pl 0) with
  | none => fillReply p .range [] s
  | some q =>
    if 256 < num16 pl 1 then fillReply p .range [] s
    else
      fillReply p .ok (put16 (s.alloc.charge.get q))
        { s with alloc := { s.alloc with quota := s.alloc.quota.set q (num16 pl 1) } }

def execSupQuota (p : Port) (s : State) : Host.Outcome State Fault Refusal :=
  .next (takeRequest p .supQuota (supQuota p) s)

end Sys2Proof.Machine
end

