-- ==== Sys2Proof/Machine/Dispatch.lean ====
section
/-! DEFINITION. The dispatch: one arm per command, each one direct call of its meaning. -/

namespace Sys2Proof.Machine

/-- The effect of a command on everything but the queue. -/
def exec (i : Instr) (s : State) : Host.Outcome State Fault Refusal :=
  match i with
  | .powerOnReset v k => Sys2Proof.Machine.execPowerOnReset v k s
  | .rstnFall p => Sys2Proof.Machine.execRstnFall p s
  | .rstnRise p => Sys2Proof.Machine.execRstnRise p s
  | .requestWindowClose p held bits => Sys2Proof.Machine.execRequestWindowClose p held bits s
  | .fetchWindowOpen p => Sys2Proof.Machine.execFetchWindowOpen p s
  | .fetchWindowClose p edges => Sys2Proof.Machine.execFetchWindowClose p edges s
  | .portReset p payload => Sys2Proof.Machine.execPortReset p payload s
  | .identify p => Sys2Proof.Machine.execIdentify p s
  | .openSession p => Sys2Proof.Machine.execOpenSession p s
  | .closeSession p => Sys2Proof.Machine.execCloseSession p s
  | .deviceReset p => Sys2Proof.Machine.execDeviceReset p s
  | .supEvictSession p => Sys2Proof.Machine.execSupEvictSession p s
  | .noticeRead p => Sys2Proof.Machine.execNoticeRead p s
  | .noticeSubscribe p => Sys2Proof.Machine.execNoticeSubscribe p s
  | .surfAlloc p => Sys2Proof.Machine.execSurfAlloc p s
  | .surfFree p => Sys2Proof.Machine.execSurfFree p s
  | .surfInfo p => Sys2Proof.Machine.execSurfInfo p s
  | .pixWrite p => Sys2Proof.Machine.execPixWrite p s
  | .pixRead p => Sys2Proof.Machine.execPixRead p s
  | .supQuota p => Sys2Proof.Machine.execSupQuota p s
  | .palGrant p => Sys2Proof.Machine.execPalGrant p s
  | .palRelease p => Sys2Proof.Machine.execPalRelease p s
  | .palSeek p => Sys2Proof.Machine.execPalSeek p s
  | .palWrite p => Sys2Proof.Machine.execPalWrite p s
  | .palRead p => Sys2Proof.Machine.execPalRead p s
  | .editBandPut p => Sys2Proof.Machine.execEditBandPut p s
  | .editBandDrop p => Sys2Proof.Machine.execEditBandDrop p s
  | .editBandView p => Sys2Proof.Machine.execEditBandView p s
  | .editBandSurface p => Sys2Proof.Machine.execEditBandSurface p s
  | .editSetTiming p => Sys2Proof.Machine.execEditSetTiming p s
  | .editSetRegion p => Sys2Proof.Machine.execEditSetRegion p s
  | .editSetBackground p => Sys2Proof.Machine.execEditSetBackground p s
  | .editSetStaleColour p => Sys2Proof.Machine.execEditSetStaleColour p s
  | .editEvictBand p => Sys2Proof.Machine.execEditEvictBand p s
  | .submit p => Sys2Proof.Machine.execSubmit p s
  | .recall p => Sys2Proof.Machine.execRecall p s
  | .abandon p => Sys2Proof.Machine.execAbandon p s
  | .touch p => Sys2Proof.Machine.execTouch p s
  | .jobFill p => Sys2Proof.Machine.execJobFill p s
  | .jobCopy p => Sys2Proof.Machine.execJobCopy p s
  | .jobCancel p => Sys2Proof.Machine.execJobCancel p s
  | .vote p => Sys2Proof.Machine.execVote p s
  | .supInhibit p => Sys2Proof.Machine.execSupInhibit p s
  | .supPowerTimes p => Sys2Proof.Machine.execSupPowerTimes p s
  | .frameStoreGrant => Sys2Proof.Machine.execFrameStoreGrant s
  | .portAccessCompletion => Sys2Proof.Machine.execPortAccessCompletion s
  | .rowCompletion => Sys2Proof.Machine.execRowCompletion s
  | .lineStart => Sys2Proof.Machine.execLineStart s
  | .frameStart => Sys2Proof.Machine.execFrameStart s
  | .bandMarkedStale k => Sys2Proof.Machine.execBandMarkedStale k s
  | .vblankStart => Sys2Proof.Machine.execVblankStart s
  | .leadCountReached => Sys2Proof.Machine.execLeadCountReached s
  | .tailCountReached => Sys2Proof.Machine.execTailCountReached s
  | .timingStopped => Sys2Proof.Machine.execTimingStopped s
  | .lineFetchCompletion => Sys2Proof.Machine.execLineFetchCompletion s
  | .backPorchStart => Sys2Proof.Machine.execBackPorchStart s
  | .displayPartStart => Sys2Proof.Machine.execDisplayPartStart s

end Sys2Proof.Machine
end

