-- ==== Sys2Proof/Safety.lean ====
section
/-! DEFINITION. What it means for the part to run safely: the laws the spec says each block keeps, as predicates of the state, and the
outcomes that count as going on. Claims are stated in these terms. -/

namespace Sys2Proof.Machine

/-- The outcome is a next state. -/
def GoesOn (o : Host.Outcome State Fault Refusal) : Prop := ∃ t, o = .next t

/-! ### Port links (R149, R152, R156) -/

/-- One link's state agrees with its slot, its request in work, its overrun flag, its RSTn and CSn pins and the reply that an open fetch window
shows; the fetch progress is 0 between commands, for the bytes of a window arrive with its close (log 20). -/
structure LinkOk (l : Link) : Prop where
  executing : l.state = .executing ↔ l.work.isSome = true
  slot : l.state = .replyReady ↔ l.slot.isSome = true
  overrun : l.overrun = true → l.state = .executing
  held : l.rstLow = true → l.state = .ready ∧ l.window = none
  selected : l.window ≠ none → l.csLow = true
  shown : ∀ w, l.window = some w → w.fromSlot = true → l.slot = some w.reply
  progress : l.progress = 0

/-- The request in work at a port waits for its access. -/
def waitsForStore (s : State) (p : Port) : Prop := (s.links.get p).work.map Work.posted = some true

/-- The access in service owes a port its reply. -/
def owesReply : Option Service → Port → Bool
  | some (.portAccess q _ _ due), p => due && decide (q = p)
  | some (.lineFetch _ _), _ | some (.engineRow _), _ | none, _ => false

/-- R149 at every link, and each request that waits for the frame store has its one access there (R67, R69, R152). -/
structure LinkLaw (s : State) : Prop where
  link : ∀ p, LinkOk (s.links.get p)
  waiting : ∀ a ∈ s.arb.ports, waitsForStore s a.port ∧ (s.sessions.get a.port).state = .opened
  oneEach : (s.arb.ports.map PortAccess.port).Nodup
  served : ∀ p, owesReply s.arb.busy p = true → waitsForStore s p ∧ ∀ a ∈ s.arb.ports, a.port ≠ p
  posted : ∀ p, waitsForStore s p → (∃ a ∈ s.arb.ports, a.port = p) ∨ owesReply s.arb.busy p = true

/-! ### Sessions, the submit queue and notices (R26, R166, R174, R175, R179) -/

/-- What the submit queue's entry of a port says of the rest of the port's state (R23, R24, R26, R27). -/
def EntryOk (s : State) : QueueEntry → Prop
  | .transaction t =>
    (s.sessions.get t.port).state = .opened ∧ s.layout.staging.get t.port = [] ∧
      outcomeCount (s.notices.get t.port).queue = 0 ∧ s.layout.record.get t.port = .queued
  | .withdrawal p => (s.sessions.get p).state = .closing ∧ (s.sessions.get p).withdrawalPending = true

/-- What a port's session record says of its own marks and label, and of the port's notices, staging area and record. -/
structure SessionOk (s : State) (p : Port) : Prop where
  marks : (s.sessions.get p).state = .closing ↔
    ((s.sessions.get p).withdrawalPending = true ∨ (s.sessions.get p).surfacesPending = true)
  label : (s.sessions.get p).state = .idle ↔ (s.sessions.get p).label = none
  withdrawing : (s.sessions.get p).withdrawalPending = true → .withdrawal p ∈ s.layout.queue
  staged : (s.layout.staging.get p).length ≤ Config.maxEdits
  stagedOpen : (s.sessions.get p).state ≠ .opened → s.layout.staging.get p = []
  recordOpen : (s.sessions.get p).state ≠ .opened → s.layout.record.get p = .noSubmit
  queued : s.layout.record.get p = .queued → hasTransaction s p = true
  quiet : (s.sessions.get p).state ≠ .opened → s.notices.get p = NoticeQueue.cleared
  outcomes : outcomeCount (s.notices.get p).queue ≤ 1
  others : otherCount (s.notices.get p).queue ≤ Config.maxOtherNotices

/-- The submit queue holds one entry per port at most, each agreeing with the port's session; while timing is stopped it holds held
entries alone (R26, R45). -/
structure QueueLaw (s : State) : Prop where
  onePerPort : (s.layout.queue.map QueueEntry.port).Nodup
  entry : ∀ e ∈ s.layout.queue, EntryOk s e
  stopped : s.timing.run = .stopped → ∀ e ∈ s.layout.queue, e.held = true
  session : ∀ p, SessionOk s p

/-! ### The active layout and freshness (R1 to R10, R124) -/

/-- A band of a band list lies on its lines, within the panel and its owner's region (R5, R8). -/
def BandOk (l : Layout) (b : Band) : Prop :=
  1 ≤ b.count ∧ b.first + b.count ≤ l.timing.vdl ∧ b.within (l.regions.get b.key.owner) = true

/-- The laws R3, R5, R6, R8 and R10 state of a layout. -/
structure LayoutOk (l : Layout) : Prop where
  bands : ∀ b ∈ l.bands, BandOk l b
  apart : l.bands.Pairwise fun a b => a.first + a.count ≤ b.first
  keys : (l.bands.map Band.key).Nodup
  count : bandCountOk l.bands = true
  timing : timingInRange l.timing = true

/-- The edits a port has staged or submitted could be staged by it (R19 to R21). -/
def EditsOk (p : Port) (es : List Edit) : Prop := ∀ e ∈ es, e.stageable p = true

/-- The edits of an entry could be staged by its port. -/
def EntryEditsOk : QueueEntry → Prop
  | .transaction t => EditsOk t.port t.edits
  | .withdrawal _ => True

/-- A freshness record agrees with its band's stale limit (R124, R125). -/
def FreshOk (bs : List Band) (r : FreshRecord) : Prop :=
  r.age ≤ limitOf bs r.key ∧ (r.mark = true ↔ (1 ≤ limitOf bs r.key ∧ r.age = limitOf bs r.key))

/-- The active layout keeps its laws, and the freshness monitor holds one record for each band, in band-list order. -/
structure LayoutLaw (s : State) : Prop where
  active : LayoutOk s.layout.active
  staged : ∀ p, EditsOk p (s.layout.staging.get p)
  queued : ∀ e ∈ s.layout.queue, EntryEditsOk e
  records : s.fresh.records.map FreshRecord.key = s.layout.active.bands.map Band.key
  ages : ∀ r ∈ s.fresh.records, FreshOk s.layout.active.bands r
  owners : ∀ b ∈ s.layout.active.bands,
    (s.sessions.get b.key.owner).state = .opened ∨ (s.sessions.get b.key.owner).withdrawalPending = true

/-! ### Timing and power (R107, R108, R112, R117, R138 to R144) -/

/-- The layout's parameters are those pending, or those active when none is pending (R10, R108, R112). -/
def TimingAgrees (s : State) : Prop := s.layout.active.timing = s.timing.pending.getD s.timing.active

/-- The timing generator's own state (R107, R108, R110). -/
structure TimingLaw (s : State) : Prop where
  agrees : TimingAgrees s
  active : timingInRange s.timing.active = true
  pending : ∀ t, s.timing.pending = some t → timingInRange t = true
  display : s.timing.run = .running → s.timing.period = .display → s.timing.pending = none
  stopMark : s.timing.run = .stopped → s.timing.stopPending = false
  position : s.timing.run = .running → s.timing.line < s.timing.active.vdl + s.timing.active.vnd
  period : s.timing.run = .running → (s.timing.period = .display ↔ s.timing.line < s.timing.active.vdl)

/-- The power sequencer against the timing generator and against demand (R134, R138, R139 to R144). -/
structure PowerLaw (s : State) : Prop where
  dark : s.power.state = .dark ↔ s.timing.run = .stopped
  mark : s.power.stopRequested = s.timing.stopPending
  marked : s.power.stopRequested = true → s.power.state = .logicLead ∨ s.power.state = .logicTail
  darkQuiet : s.power.state = .dark → demand s = false
  leadWanted : s.power.state = .logicLead → s.power.stopRequested = false → demand s = true
  heldWanted : s.power.state = .logicHeld → demand s = true
  tailUnwanted : s.power.state = .logicTail → s.power.stopRequested = false → demand s = false
  votes : ∀ p, (s.sessions.get p).state = .opened ↔ (s.power.votes.get p).isSome = true
  counts : s.power.lead ≤ 255 ∧ 1 ≤ s.power.tail ∧ s.power.tail ≤ 255 ∧ s.power.frameCount ≤ 255 ∧
    s.power.target ≤ 255
  counting : s.power.state = .logicLead ∨ s.power.state = .logicTail → s.power.stopRequested = false →
    s.power.frameCount = 0 ∨ s.power.frameCount < s.power.target

/-! ### The palette (R74, R79, R84) -/

/-- Two ports' grants share no entry. -/
def GrantsApart : Option Grant → Option Grant → Prop
  | some g, some h => g.base + g.size ≤ h.base ∨ h.base + h.size ≤ g.base
  | some _, none | none, some _ | none, none => True

/-- A grant has a size of R74 and a base aligned to it, inside the palette. -/
def GrantOk (g : Grant) : Prop := g.size ∈ grantSizes ∧ g.base % g.size = 0 ∧ g.base + g.size ≤ 256

/-- A cursor lies in its grant or is parked behind it (R79). -/
def CursorOk (g : Grant) (c : Cursor) : Prop := c.offset ≤ g.size ∧ (c.offset = g.size → c.component = .red)

/-- One port's palette record agrees with itself and with its session (R74, R79, R84, R86). -/
structure PalRecordOk (s : State) (p : Port) : Prop where
  grant : ∀ g, grantOf s p = some g → GrantOk g ∧ (s.sessions.get p).state ≠ .idle
  held : (s.sessions.get p).state = .closing → (s.sessions.get p).withdrawalPending = false → grantOf s p = none
  cursor : (s.pal.records.get p).cursor.isSome = true ↔
    ((grantOf s p).isSome = true ∧ (s.sessions.get p).state = .opened)
  cursorIn : ∀ g c, grantOf s p = some g → (s.pal.records.get p).cursor = some c → CursorOk g c
  unpublished : (s.pal.records.get p).unpublished = true → (grantOf s p).isSome = true

/-- The grant law of R74, and each record in order. -/
structure PaletteLaw (s : State) : Prop where
  apart : ∀ p q, p ≠ q → GrantsApart (grantOf s p) (grantOf s q)
  record : ∀ p, PalRecordOk s p

/-! ### The frame store (R48, R52, R53) -/

/-- A free extent holds block b. -/
def Extent.holds (x : Extent) (b : Nat) : Bool := decide (x.start ≤ b) && decide (b < x.start + x.length)

/-- The surface of an entry holds block b. -/
def SurfEntry.holds (e : SurfEntry) (b : Nat) : Bool :=
  decide (e.state ≠ .free) && decide (e.firstBlock ≤ b) && decide (b < e.firstBlock + e.blockCount)

/-- In how many places block b is: free extents and surfaces. -/
def holders (a : Allocator) (b : Nat) : Nat :=
  a.free.countP (fun x => x.holds b) + a.table.toList.countP (fun e => e.holds b)

/-- The block count of an entry, counted for a port when the surface is the port's. -/
def SurfEntry.chargeFor (e : SurfEntry) (p : Port) : Nat :=
  if e.state ≠ .free ∧ e.owner = p then e.blockCount else 0

/-- The law of the frame store (R52) and of the charges (R53). -/
structure AllocLaw (a : Allocator) : Prop where
  once : ∀ b, b < Config.blocks → holders a b = 1
  extents : ∀ x ∈ a.free, 1 ≤ x.length ∧ x.start + x.length ≤ Config.blocks
  runs : ∀ e ∈ a.table.toList, e.state ≠ .free → 1 ≤ e.blockCount ∧ e.firstBlock + e.blockCount ≤ Config.blocks
  apart : a.free.Pairwise fun x y => x.start + x.length < y.start
  charges : ∀ p, a.charge.get p = (a.table.toList.map fun e => e.chargeFor p).sum

/-! ### Surfaces, jobs and accesses (R7, R49, R51, R60 to R62, R88, R89) -/

/-- A surface-table entry has the geometry R49 and R51 give it. -/
def GeometryOk (e : SurfEntry) : Prop :=
  e.state ≠ .free →
    (8 ≤ e.width ∧ e.width ≤ 2048 ∧ 1 ≤ e.height ∧ e.height ≤ 1024 ∧ e.stride = strideOf e.width e.depth ∧
      e.blockCount = blocksOf e.stride e.height)

/-- A surface is named by the aborting job. -/
def underAbort (s : State) (i : Fin 32) (e : SurfEntry) : Bool :=
  s.engine.jobs.any fun j => decide (j.state = .aborting) && j.names ⟨i, e.gen⟩

/-- An entry's state agrees with its owner's session, and a flagged or retiring surface is waited for (R60 to R62, R175). -/
structure EntryOwned (s : State) (i : Fin 32) (e : SurfEntry) : Prop where
  live : e.state = .live → (s.sessions.get e.owner).state = .opened
  owned : e.state = .retiring → (s.sessions.get e.owner).state = .opened ∨
    ((s.sessions.get e.owner).state = .closing ∧ (s.sessions.get e.owner).surfacesPending = true)
  flagged : e.pendingAbort = true ↔ (e.state ≠ .free ∧ underAbort s i e = true)
  waited : e.state = .retiring → s.alloc.withdrawalOut.get e.owner = true ∨ e.pendingAbort = true

/-- A port's marks at the allocator are the session manager's (R61, R62, R174). -/
def MarksAgree (s : State) (p : Port) : Prop :=
  s.alloc.withdrawalOut.get p = (s.sessions.get p).withdrawalPending ∧
    s.alloc.reportOwed.get p = (s.sessions.get p).surfacesPending ∧
    ((s.sessions.get p).surfacesPending = true → (s.sessions.get p).withdrawalPending = false → noRetiring s p = false)

/-- A surface band of the active layout shows a whole window of its owner's surface (R7, R15, R16, R38). -/
def BandShows (s : State) (b : Band) : Prop :=
  match b.part with
  | .fill _ => True
  | .surface h x y =>
    ∃ e, namedSurface s.alloc.table h = some e ∧ e.owner = b.key.owner ∧
      x + s.layout.active.timing.hdw ≤ e.width ∧ y + b.count ≤ e.height ∧ x % pixelsPerByte e.depth = 0 ∧
      grantCovers (grantOf s b.key.owner) e.depth = true ∧
      (e.state = .retiring → s.alloc.withdrawalOut.get e.owner = true)

/-- A surface a held job names is the owner's, and LIVE unless the job is being aborted (R90, R99 to R102). -/
def JobSurface (s : State) (j : Job) (h : Handle) (x y : Nat) : Prop :=
  ∃ e, namedSurface s.alloc.table h = some e ∧ e.owner = j.owner ∧ (j.state ≠ .aborting → e.state = .live) ∧
    x + j.w ≤ e.width ∧ y + j.h ≤ e.height

/-- The depth of the entry a handle points at. -/
def depthAt (s : State) (h : Handle) : Depth := (s.alloc.table.get h.index).depth

/-- What the kind of a job asks for: a value of the destination's depth, or a source of that depth (R90). -/
def JobKindOk (s : State) (j : Job) : Prop :=
  match j.kind with
  | .fill v => v < 2 ^ (depthAt s j.dest).bits
  | .copy src sx sy => JobSurface s j src sx sy ∧ depthAt s src = depthAt s j.dest

/-- One job record (R88, R90, R92, R102). -/
structure JobOk (s : State) (j : Job) : Prop where
  rows : j.rowsDone < j.h ∧ 1 ≤ j.w
  dest : JobSurface s j j.dest j.dx j.dy
  kind : JobKindOk s j
  owner : (s.sessions.get j.owner).state = .opened ∧ j.notify = true ∨
    (s.sessions.get j.owner).state = .closing ∧ j.notify = false ∧ j.state = .aborting
  fresh : j.state = .queued → j.rowsDone = 0

/-- The job queue (R89, R93): the running job is the oldest, and there is one whenever the queue is not empty. -/
def HeadRuns : List Job → Prop
  | [] => True
  | j :: rest => j.state ≠ .queued ∧ ∀ k ∈ rest, k.state = .queued

/-- The access in service is the running job's row. -/
def servesRow : Option Service → Bool
  | some (.engineRow orphan) => !orphan
  | some (.lineFetch _ _) | some (.portAccess _ _ _ _) | none => false

/-- Every job an entry awaits is one the engine holds for its port (R23, R103). -/
def AwaitsHeld (s : State) : QueueEntry → Prop
  | .transaction t => ∀ n ∈ t.awaited, ∃ j ∈ s.engine.jobs, j.arrival = n ∧ j.owner = t.port
  | .withdrawal _ => True

/-- The copy engine (R88 to R94). -/
structure EngineLaw (s : State) : Prop where
  total : s.engine.jobs.length ≤ Config.maxJobs
  perPort : ∀ p, jobCount s p ≤ Config.maxJobsPerPort
  tags : (s.engine.jobs.map fun j => (j.owner, j.tag)).Nodup
  head : HeadRuns s.engine.jobs
  job : ∀ j ∈ s.engine.jobs, JobOk s j
  row : (s.engine.jobs ≠ [] ↔ (s.arb.engineRow = true ∨ servesRow s.arb.busy = true)) ∧
    ¬(s.arb.engineRow = true ∧ servesRow s.arb.busy = true)
  awaited : ∀ e ∈ s.layout.queue, AwaitsHeld s e

/-- The surface table against sessions, bands and jobs. -/
structure SurfaceLaw (s : State) : Prop where
  geometry : ∀ e ∈ s.alloc.table.toList, GeometryOk e
  entry : ∀ i : Fin 32, EntryOwned s i (s.alloc.table.get i)
  marks : ∀ p, MarksAgree s p
  shown : ∀ b ∈ s.layout.active.bands, BandShows s b

/-- A line fetch lies in the frame store and yields a colour for each column (R15, R67). -/
def FetchOk (s : State) (f : LineFetch) : Prop :=
  f.addr + f.len ≤ Config.storeBytes ∧ f.len = pixelSpan f.depth s.timing.active.hdw

/-- The line fetch in service, if one is. -/
def servedFetch : Option Service → Option LineFetch
  | some (.lineFetch f _) => some f
  | some (.engineRow _) | some (.portAccess _ _ _ _) | none => none

/-- The bytes of the line fetch in service, if one is. -/
def servedBytes : Option Service → Option (List Byte)
  | some (.lineFetch _ bs) => some bs
  | some (.engineRow _) | some (.portAccess _ _ _ _) | none => none

/-- Scan-out holds HDW colours, or awaits the one line fetch that will give them (R67, R120). -/
structure ScanLaw (s : State) : Prop where
  awaiting : s.scan = .awaiting ↔ (s.arb.lineFetch.isSome = true ∨ (servedFetch s.arb.busy).isSome = true)
  single : ¬(s.arb.lineFetch.isSome = true ∧ (servedFetch s.arb.busy).isSome = true)
  notDriven : s.scan = .awaiting → s.timing.run = .running ∧ s.timing.period = .display ∧ s.timing.part ≠ .display
  fetch : ∀ f, s.arb.lineFetch = some f → FetchOk s f
  served : ∀ f, servedFetch s.arb.busy = some f → FetchOk s f ∧ (servedBytes s.arb.busy).map List.length = some f.len
  fixed : ∀ cs, s.scan = .fixed cs → s.timing.run = .running ∧ s.timing.period = .display ∧ cs.length = s.timing.active.hdw
  sourced : s.timing.run = .running → s.timing.period = .display → s.scan ≠ .none
  access : ∀ a ∈ s.arb.ports, a.addr + a.span ≤ Config.storeBytes

/-- Every law together. -/
structure Lawful (s : State) : Prop where
  link : LinkLaw s
  queue : QueueLaw s
  layout : LayoutLaw s
  timing : TimingLaw s
  power : PowerLaw s
  palette : PaletteLaw s
  alloc : AllocLaw s.alloc
  surface : SurfaceLaw s
  engine : EngineLaw s
  scan : ScanLaw s
  store : Memory.wf s.store = true

end Sys2Proof.Machine
end

