-- ==== Sys2Proof/Certificates/Slice0/Obligations.lean ====
section
/-! DEFINITION. The statements for the provers, with the few words they share: a request in work, a request that the session manager
admits, and the fill of a reply spelled out field by field. Every statement about a request row gives the next state it answers, and the
equalities give its frame too: what the record update does not name is unchanged. -/

namespace Sys2Proof.Machine

/-! ### Shared words -/

/-- A request is in work at a port's link and no block has taken it yet (R150, R155). -/
def InWork (s : State) (p : Port) (k : Kind) (ep : Byte) (pl : List Byte) : Prop :=
  (s.links.get p).work = some { kind := k, epoch := ep, payload := pl, posted := false }

/-- The supervisor kinds of R154, check 1. -/
def supervisorKinds : List Kind := [.deviceReset, .supQuota, .supInhibit, .supPowerTimes, .supEvictSession]

/-- A request in work that passes the session checks of R154: its port's session is OPEN, its epoch is the session's, and a
supervisor kind comes from the supervisor port. -/
def Admitted (s : State) (p : Port) (k : Kind) (pl : List Byte) : Prop :=
  InWork s p k (s.sessions.get p).epoch pl ∧ (s.sessions.get p).state = .opened ∧
    (k ∈ supervisorKinds → p = s.supv)

/-- The reply of the request in work fills the slot (R152): status, executing sequence, the overrun flag as it stood, the
attention-pending flag of the port's notice queue (R164), and the payload; the overrun flag is cleared and the link is REPLY_READY. -/
def Replied (s : State) (p : Port) (st : Status) (payload : List Byte) : State :=
  let l := s.links.get p
  { s with
    links :=
      s.links.set p
        { l with
          state := .replyReady
          slot :=
            some
              { status := st, seq := l.execSeq, overrun := l.overrun,
                attention := decide ((s.notices.get p).queue ≠ []), payload := payload }
          overrun := false
          work := none } }

/-- The request row of a port and the kind it takes. -/
def requestRow : Instr → Option (Port × Kind)
  | .identify p => some (p, .identify)
  | .openSession p => some (p, .openSession)
  | .closeSession p => some (p, .closeSession)
  | .deviceReset p => some (p, .deviceReset)
  | .supEvictSession p => some (p, .supEvictSession)
  | .noticeRead p => some (p, .noticeRead)
  | .noticeSubscribe p => some (p, .noticeSubscribe)
  | .surfAlloc p => some (p, .surfAlloc)
  | .surfFree p => some (p, .surfFree)
  | .surfInfo p => some (p, .surfInfo)
  | .pixWrite p => some (p, .pixWrite)
  | .pixRead p => some (p, .pixRead)
  | .supQuota p => some (p, .supQuota)
  | .palGrant p => some (p, .palGrant)
  | .palRelease p => some (p, .palRelease)
  | .palSeek p => some (p, .palSeek)
  | .palWrite p => some (p, .palWrite)
  | .palRead p => some (p, .palRead)
  | .editBandPut p | .editBandDrop p | .editBandView p | .editBandSurface p | .editSetTiming p | .editSetRegion p
  | .editSetBackground p | .editSetStaleColour p | .editEvictBand p => some (p, .edit)
  | .submit p => some (p, .submit)
  | .recall p => some (p, .recall)
  | .abandon p => some (p, .abandon)
  | .touch p => some (p, .touch)
  | .jobFill p => some (p, .jobFill)
  | .jobCopy p => some (p, .jobCopy)
  | .jobCancel p => some (p, .jobCancel)
  | .vote p => some (p, .vote)
  | .supInhibit p => some (p, .supInhibit)
  | .supPowerTimes p => some (p, .supPowerTimes)
  | .powerOnReset _ _ | .rstnFall _ | .rstnRise _ | .requestWindowClose _ _ _ | .fetchWindowOpen _
  | .fetchWindowClose _ _ | .portReset _ _ | .frameStoreGrant | .portAccessCompletion | .rowCompletion | .lineStart
  | .frameStart | .bandMarkedStale _ | .vblankStart | .leadCountReached | .tailCountReached | .timingStopped
  | .lineFetchCompletion | .backPorchStart | .displayPartStart => none

/-- The port and the edit kind code of an EDIT row (R161). -/
def editRow : Instr → Option (Port × Nat)
  | .editBandPut p => some (p, 1)
  | .editBandDrop p => some (p, 2)
  | .editBandView p => some (p, 3)
  | .editBandSurface p => some (p, 4)
  | .editSetTiming p => some (p, 8)
  | .editSetRegion p => some (p, 9)
  | .editSetBackground p => some (p, 10)
  | .editSetStaleColour p => some (p, 11)
  | .editEvictBand p => some (p, 12)
  | _ => none

/-- An EDIT row takes the EDIT in work that names its edit kind, and one that names none (the model's choice, log 5). -/
def rowNames (c : Instr) (pl : List Byte) : Prop :=
  ∀ q code, editRow c = some (q, code) →
    pl.head?.map BitVec.toNat = some code ∨
      ∀ n ∈ [1, 2, 3, 4, 8, 9, 10, 11, 12], pl.head?.map BitVec.toNat ≠ some n

/-- The port has a TRANSACTION entry in the submit queue. -/
def Submitted (s : State) (p : Port) : Prop := ∃ t, QueueEntry.transaction t ∈ s.layout.queue ∧ t.port = p

/-- The port resets its link (R156): READY, slot empty, overrun flag, fetch progress and sequence cleared, no request in work, no window
open, and an access of the port in service owes no reply. -/
def LinkReset (s : State) (p : Port) : State :=
  { s with
    links :=
      s.links.set p
        { s.links.get p with
          state := .ready, slot := none, overrun := false, execSeq := 0#8, work := none, window := none, progress := 0 }
    arb :=
      { s.arb with
        busy :=
          match s.arb.busy with
          | some (.portAccess q st pl due) => some (.portAccess q st pl (due && decide (q ≠ p)))
          | other => other } }

/-- A PORT_RESET frame has reset the port's link: SDO was 0x00 for its bytes (log 20). -/
def resetByFrame (s : State) (p : Port) (pl : List Byte) : State :=
  LinkReset { s with links := s.links.set p { s.links.get p with sdo := List.replicate (6 + pl.length) 0#8 } } p

/-- A falling RSTn has reset the port's link, which it now holds. -/
def resetByPin (s : State) (p : Port) : State :=
  LinkReset { s with links := s.links.set p { s.links.get p with rstLow := true } } p

/-- The link of a port whose session another port's request has ended (R69, R157): a request that waited for its access is answered
NO_SESSION, without a payload and with the notice queue as it stood (log 22); otherwise the link is as it was. -/
def EvictedLink (s : State) (p : Port) (t : State) : Prop :=
  (waitsForStore s p → (∃ a ∈ s.arb.ports, a.port = p) →
    t.links.get p = (Replied s p .noSession []).links.get p) ∧
  ((∀ a ∈ s.arb.ports, a.port ≠ p) → t.links.get p = s.links.get p)

/-- A band covers a line and is the only band of the layout that does (R5, R14). -/
def OnlyCover (s : State) (n : Nat) (b : Band) : Prop :=
  b ∈ s.layout.active.bands ∧ b.covers n = true ∧ ∀ b' ∈ s.layout.active.bands, b'.covers n = true → b' = b

/-- Scan-out has sourced display line n, from the layout and tables of `s` and a stale set (R14, R15): the four cases. -/
structure SourcedAs (s : State) (stale : List BandKey) (n : Nat) (t : State) : Prop where
  background : (∀ b ∈ s.layout.active.bands, b.covers n = false) →
    t.scan = .fixed (List.replicate s.layout.active.timing.hdw s.layout.active.background)
  marked : ∀ b, OnlyCover s n b → b.key ∈ stale →
    t.scan = .fixed (List.replicate s.layout.active.timing.hdw s.layout.active.staleColour)
  fill : ∀ b c, OnlyCover s n b → b.key ∉ stale → b.part = .fill c →
    t.scan = .fixed (List.replicate s.layout.active.timing.hdw c)
  surface : ∀ b h x y, OnlyCover s n b → b.key ∉ stale → b.part = .surface h x y →
    t.scan = .awaiting ∧
      t.arb.lineFetch =
        some
          { addr :=
              (s.alloc.table.get h.index).firstBlock * 2048 +
                ((y + (n - b.first)) * (s.alloc.table.get h.index).stride +
                  pixelByte (s.alloc.table.get h.index).depth x)
            len := pixelSpan (s.alloc.table.get h.index).depth s.layout.active.timing.hdw
            depth := (s.alloc.table.get h.index).depth
            palette := paletteSlice s b.key.owner (s.alloc.table.get h.index).depth }
  fetchKept : t.scan ≠ .awaiting → t.arb.lineFetch = s.arb.lineFetch
  rest : t.arb = { s.arb with lineFetch := t.arb.lineFetch }

/-- The values every block takes at power-on (R12, R18, R24, R26, R70, R87, R104, R122, R133, R134, R149, R166, R184). -/
structure PowerOnValues (v : Port) (k : Fin 4) (t : State) : Prop where
  straps : t.supv = v ∧ t.preset = k
  links : ∀ p, (t.links.get p).state = .ready ∧ (t.links.get p).slot = none ∧ (t.links.get p).overrun = false ∧
    (t.links.get p).execSeq = 0#8 ∧ (t.links.get p).work = none ∧ (t.links.get p).window = none ∧
    (t.links.get p).progress = 0
  sessions : ∀ p, t.sessions.get p =
    { state := .idle, epoch := 0#8, label := none, withdrawalPending := false, surfacesPending := false }
  notices : ∀ p, t.notices.get p = { queue := [], lost := false, frameSub := false }
  layout : t.layout.active.bands = [] ∧ t.layout.active.background = ⟨0#6, 0#6, 0#6⟩ ∧
    t.layout.active.staleColour = ⟨63#6, 0#6, 63#6⟩ ∧ t.layout.queue = []
  preset : t.layout.active.timing = t.timing.active ∧
    (k = 0 → t.timing.active = { hdw := 320, hnd := 64, vdl := 240, vnd := 16, divider := 4 }) ∧
    (k = 1 → t.timing.active = { hdw := 480, hnd := 48, vdl := 272, vnd := 12, divider := 2 }) ∧
    (k = 2 → t.timing.active = { hdw := 640, hnd := 160, vdl := 480, vnd := 45, divider := 1 }) ∧
    (k = 3 → t.timing.active = { hdw := 800, hnd := 128, vdl := 480, vnd := 30, divider := 1 })
  regions : ∀ p, t.layout.active.regions.get p = { top := 0, bottom := 767 } ∧ t.layout.staging.get p = [] ∧
    t.layout.record.get p = .noSubmit
  surfaces : ∀ i : Fin 32, (t.alloc.table.get i).state = .free ∧ (t.alloc.table.get i).gen = 0#8 ∧
    (t.alloc.table.get i).pendingAbort = false
  free : t.alloc.free = [{ start := 0, length := 256 }]
  charges : ∀ p, t.alloc.charge.get p = 0 ∧ t.alloc.quota.get p = 64 ∧ t.alloc.withdrawalOut.get p = false
  arbiter : t.arb = { turn := .ports, lineFetch := none, engineRow := false, ports := [], busy := none }
  store : t.store = []
  palette : ∀ i : Fin 256, t.pal.active.get i = ⟨0#6, 0#6, 0#6⟩ ∧ t.pal.draft.get i = ⟨0#6, 0#6, 0#6⟩
  grants : ∀ p, t.pal.records.get p = { grant := none, cursor := none, unpublished := false }
  engine : t.engine = { jobs := [], arrival := 0#16 }
  generator : t.timing.run = .stopped ∧ t.timing.stopPending = false ∧ t.timing.pending = none ∧
    t.timing.frameNumber = 0#16
  freshness : t.fresh = { records := [], staleSet := [] }
  power : t.power =
    { state := .dark, votes := ⟨none, none, none, none⟩, inhibit := false, lead := 2, tail := 60,
      frameCount := 0, target := 0, stopRequested := false }

/-- The edges of demand: what the sequencer and the generator make of a change of vote (R139, R140, R142, R143), as fields of the power
sequencer. -/
def powerAfterVote (s : State) (votes : PerPort (Option Vote)) (before after : Bool) : PowerSequencer :=
  let q := { s.power with votes := votes }
  if before = after then q
  else if after then
    match s.power.state with
    | .dark => { q with state := .logicLead, frameCount := 0, target := s.power.lead }
    | .logicTail =>
      if s.power.stopRequested then q else { q with state := .logicLead, frameCount := 0, target := s.power.lead }
    | .logicLead | .lit | .logicHeld => q
  else
    match s.power.state with
    | .logicLead => if s.power.stopRequested then q else { q with stopRequested := true }
    | .logicHeld => { q with state := .logicTail, frameCount := 0, target := s.power.tail }
    | .dark | .lit | .logicTail => q

/-- A surface named by a job: it is not FREE and a handle of the job names it (R60). -/
def NamedBy (s : State) (j : Job) (i : Fin 32) : Prop :=
  (s.alloc.table.get i).state ≠ .free ∧ ∃ h ∈ j.handles, h.index = i ∧ h.gen = (s.alloc.table.get i).gen

/-- A job of the port runs, or is being aborted (R88). -/
def RunsJob (s : State) (p : Port) : Prop := ∃ j ∈ s.engine.jobs, j.owner = p ∧ j.state ≠ .queued

/-- The copy engine after its part of a teardown (R102): the port's QUEUED jobs are gone, and its running job is ABORTING without a
notice to come. -/
def engineTornDown (s : State) (p : Port) : CopyEngine :=
  { s.engine with
    jobs :=
      (s.engine.jobs.filter fun j => decide (¬(j.owner = p ∧ j.state = .queued))).map fun j =>
        if j.owner = p then { j with state := .aborting, notify := false } else j }

/-- The teardown of a port's OPEN session while timing runs (R173), from the state at its start to the state at its end, with the power
sequencer's answer to a loss of demand (R135). The links stand in the statements about each cause. -/
structure TornDown (s : State) (p : Port) (t : State) : Prop where
  session : t.sessions = s.sessions.set p
    { s.sessions.get p with state := .closing, withdrawalPending := true, surfacesPending := true }
  layout : t.layout =
    { s.layout with
      staging := s.layout.staging.set p []
      record := s.layout.record.set p .noSubmit
      queue := (s.layout.queue.filter fun e => decide (e.port ≠ p)) ++ [.withdrawal p] }
  surfaces : ∀ i : Fin 32,
    t.alloc.table.get i =
      { s.alloc.table.get i with
        state := if (s.alloc.table.get i).state = .live ∧ (s.alloc.table.get i).owner = p then .retiring
          else (s.alloc.table.get i).state
        pendingAbort := (t.alloc.table.get i).pendingAbort }
  flags : ∀ i : Fin 32, (t.alloc.table.get i).pendingAbort = true ↔
    ((s.alloc.table.get i).pendingAbort = true ∨
      ∃ j ∈ s.engine.jobs, j.owner = p ∧ j.state = .running ∧ NamedBy s j i)
  blocks : t.alloc.free = s.alloc.free ∧ t.alloc.charge = s.alloc.charge ∧ t.alloc.quota = s.alloc.quota ∧
    t.alloc.withdrawalOut = s.alloc.withdrawalOut.set p true ∧ t.alloc.reportOwed = s.alloc.reportOwed.set p true
  access : t.arb = { s.arb with ports := s.arb.ports.filter fun a => decide (a.port ≠ p) }
  store : t.store = s.store
  palette : t.pal = { s.pal with records := s.pal.records.set p { s.pal.records.get p with cursor := none } }
  engine : t.engine = engineTornDown s p
  power : t.power =
    powerAfterVote s (s.power.votes.set p none) (demand s)
      (demand { s with power := { s.power with votes := s.power.votes.set p none } })
  freshness : t.fresh = s.fresh
  timing : t.timing =
    { s.timing with
      stopPending :=
        s.timing.stopPending ||
          decide
            (s.power.state = .logicLead ∧ s.power.stopRequested = false ∧ demand s = true ∧
              demand { s with power := { s.power with votes := s.power.votes.set p none } } = false) }
  scan : t.scan = s.scan
  notices : t.notices.get p = { queue := [], lost := false, frameSub := false }
  told : ∀ q, q ≠ p → t.notices.get q =
    if (s.sessions.get q).state = .opened ∧ t.power.state ≠ s.power.state then
      (s.notices.get q).take (.power t.power.state)
    else s.notices.get q

/-- The teardown of a port's OPEN session while timing is stopped (R45, R173, R174): the withdrawal is applied within the event. With no
running job of the port the session is IDLE and its surfaces are FREE; with one, the session stays CLOSING for the surfaces that the job
names. A freed entry keeps its unused fields (the model's choice, log 10). -/
structure TornDownStopped (s : State) (p : Port) (t : State) : Prop where
  ended : ¬RunsJob s p →
    t.sessions = s.sessions.set p
      { state := .idle, epoch := (s.sessions.get p).epoch, label := none, withdrawalPending := false,
        surfacesPending := false } ∧
    t.alloc.charge = s.alloc.charge.set p 0 ∧ t.alloc.reportOwed = s.alloc.reportOwed.set p false
  waits : RunsJob s p →
    t.sessions = s.sessions.set p
      { s.sessions.get p with state := .closing, withdrawalPending := false, surfacesPending := true } ∧
    t.alloc.reportOwed = s.alloc.reportOwed.set p true
  layout : t.layout =
    { active := { s.layout.active with bands := s.layout.active.bands.filter fun b => decide (b.key.owner ≠ p) }
      staging := s.layout.staging.set p []
      record := s.layout.record.set p .noSubmit
      queue := s.layout.queue.filter fun e => decide (e.port ≠ p) }
  freshness : t.fresh = { s.fresh with records := s.fresh.records.filter fun r => decide (r.key.owner ≠ p) }
  named : ∀ i : Fin 32, (s.alloc.table.get i).owner = p →
    (∃ j ∈ s.engine.jobs, j.owner = p ∧ j.state ≠ .queued ∧ NamedBy s j i) →
    t.alloc.table.get i = { s.alloc.table.get i with state := .retiring, pendingAbort := true }
  unnamed : ∀ i : Fin 32, (s.alloc.table.get i).owner = p →
    (∀ j ∈ s.engine.jobs, j.owner = p → j.state ≠ .queued → ¬NamedBy s j i) →
    t.alloc.table.get i = { s.alloc.table.get i with state := .free }
  others : ∀ i : Fin 32, (s.alloc.table.get i).owner ≠ p → t.alloc.table.get i = s.alloc.table.get i
  blocks : (∀ q, q ≠ p → t.alloc.charge.get q = s.alloc.charge.get q) ∧ t.alloc.quota = s.alloc.quota ∧
    t.alloc.withdrawalOut = s.alloc.withdrawalOut.set p false
  access : t.arb = { s.arb with ports := s.arb.ports.filter fun a => decide (a.port ≠ p) }
  store : t.store = s.store
  palette : t.pal =
    { s.pal with records := s.pal.records.set p { grant := none, cursor := none, unpublished := false } }
  engine : t.engine = engineTornDown s p
  power : t.power = { s.power with votes := s.power.votes.set p none }
  timing : t.timing = s.timing
  scan : t.scan = s.scan
  notices : t.notices = s.notices.set p { queue := [], lost := false, frameSub := false }

/-- The sequencer after a VBLANK_START (the tables of R140, R141 and R143; R142 for LOGIC_HELD). -/
def powerAfterVblank (s : State) : PowerSequencer :=
  let q := s.power
  match q.state with
  | .logicLead =>
    if q.stopRequested then q
    else if q.target ≤ q.frameCount + 1 then
      { q with frameCount := q.frameCount + 1, state := if q.inhibit then .logicHeld else .lit }
    else { q with frameCount := q.frameCount + 1 }
  | .lit =>
    if demand s = false then { q with state := .logicTail, frameCount := 0, target := q.tail }
    else if q.inhibit then { q with state := .logicHeld }
    else q
  | .logicTail =>
    if q.stopRequested then q
    else if q.target ≤ q.frameCount + 1 then { q with frameCount := q.frameCount + 1, stopRequested := true }
    else { q with frameCount := q.frameCount + 1 }
  | .dark | .logicHeld => q

/-- Each OPEN session is told of a power state (R145), and no other notice queue changes. -/
def PowerTold (s t : State) (st : PowerState) : Prop :=
  ∀ q, t.notices.get q =
    if (s.sessions.get q).state = .opened then (s.notices.get q).take (.power st) else s.notices.get q

/-- The STALE notices of a FRAME_START, in band-list order, the owner's before the supervisor's (R126). -/
def staleTold (s : State) : List Posting :=
  (s.fresh.records.filter fun r =>
      !r.mark && decide (1 ≤ limitOf s.layout.active.bands r.key) &&
        decide (r.age + 1 = limitOf s.layout.active.bands r.key)).flatMap
    fun r =>
      if r.key.owner = s.supv then [(r.key.owner, .stale r.key)]
      else [(r.key.owner, .stale r.key), (s.supv, .stale r.key)]

/-- The POWER postings of a change of state, one for each port (R145). -/
def powerToEach (st : PowerState) : List Posting := Port.all.map fun p => (p, .power st)

/-- The notices that postings bring to a port, in their order. -/
def noticesFor (q : Port) (xs : List Posting) : List Notice := (xs.filter fun x => decide (x.1 = q)).map Prod.snd

/-- The notice block has taken the postings that several blocks made at one event: each block's in its order, all merged in some order,
which R179 leaves open (log 7); and each OPEN session's queue is what those notices, one after another, make of it. -/
def ToldMerged (s t : State) (blocks : List (List Posting)) : Prop :=
  ∀ q, ∃ ns : List Notice, ns.Perm (blocks.flatMap (noticesFor q)) ∧ (∀ xs ∈ blocks, (noticesFor q xs).Sublist ns) ∧
    t.notices.get q =
      if (s.sessions.get q).state = .opened then ns.foldl NoticeQueue.take (s.notices.get q) else s.notices.get q

/-- A session record at the end of an event: a CLOSING session whose marks are both clear has become IDLE (R174). -/
def atEventEnd (x : Session) : Session :=
  if x.state = .closing ∧ x.withdrawalPending = false ∧ x.surfacesPending = false then
    { x with state := .idle, label := none }
  else x

/-- A pass over the submit queue that left `pass` has made the layout, the palette, the freshness records, the allocator, the pending
timing parameters and the sessions what they are in `t` (R28, R40, R44, R174). -/
structure PassLeft (pass t : State) : Prop where
  layout : t.layout = pass.layout
  palette : t.pal = pass.pal
  freshness : t.fresh = pass.fresh
  alloc : t.alloc = pass.alloc
  pending : t.timing.pending = pass.timing.pending
  sessions : ∀ p, t.sessions.get p = atEventEnd (pass.sessions.get p)

/-- The bands have aged one FRAME_START, by the table of R125, and the new stale set is published (R127). -/
structure AgedAs (s t : State) : Prop where
  records : t.fresh.records =
    s.fresh.records.map fun r =>
      if r.mark = true ∨ limitOf s.layout.active.bands r.key = 0 then r
      else { r with age := r.age + 1, mark := decide (r.age + 1 = limitOf s.layout.active.bands r.key) }
  staleSet : t.fresh.staleSet = (t.fresh.records.filter fun r => r.mark).map FreshRecord.key

/-- The active layout, what is pending at the generator, the palette and the freshness records are as they were (R43). -/
def LayoutKept (s t : State) : Prop :=
  t.layout.active = s.layout.active ∧ t.timing.pending = s.timing.pending ∧ t.pal = s.pal ∧ t.fresh = s.fresh

/-- A transaction of port p was accepted with the tentative copy v (R40 to R42). -/
structure AcceptedAs (s : State) (p : Port) (tag : Byte) (edits : List Edit) (frame : BitVec 16) (v : Tentative)
    (t : State) : Prop where
  layout : t.layout.active = v.copy
  timing : t.timing.pending =
    if (edits.any fun e => match e with | .setTiming _ => true | _ => false) then some v.copy.timing
    else s.timing.pending
  published : ∀ i : Fin 256,
    t.pal.active.get i =
      match (s.pal.records.get p).grant with
      | some g => if g.base ≤ i.val ∧ i.val < g.base + g.size then s.pal.draft.get i else s.pal.active.get i
      | none => s.pal.active.get i
  draft : t.pal.draft = s.pal.draft
  records : t.pal.records = s.pal.records.set p { s.pal.records.get p with unpublished := false }
  keys : t.fresh.records.map FreshRecord.key = v.copy.bands.map Band.key
  fresh : ∀ r ∈ t.fresh.records,
    (r.key ∈ v.changed → r.age = 0 ∧ r.mark = false) ∧
      (r.key ∉ v.changed →
        r ∈ s.fresh.records ∨ (r.age = 0 ∧ r.mark = false ∧ ∀ o ∈ s.fresh.records, o.key ≠ r.key))
  staleSet : t.fresh.staleSet = s.fresh.staleSet
  committed : .committed tag frame ∈ (t.notices.get p).queue
  evicted : ∀ k ∈ v.evicted, (∀ b ∈ v.copy.bands, b.key ≠ k) → (s.sessions.get k.owner).state = .opened →
    .evicted k ∈ (t.notices.get k.owner).queue ∨ (t.notices.get k.owner).lost = true

/-- A transaction of port p was applied, accepted or rejected, from the layout and tables of `s` (R31, R32, R35, R40 to R43). -/
structure AppliedAs (s : State) (p : Port) (tag : Byte) (edits : List Edit) (frame : BitVec 16) (t : State) : Prop where
  record : t.layout.record = s.layout.record.set p .applied
  noBand : ∀ k, applyEdits p edits (Tentative.start s.layout.active) = .error k →
    LayoutKept s t ∧ .rejected tag .noBand (some k) ∈ (t.notices.get p).queue
  failed : ∀ v r k, applyEdits p edits (Tentative.start s.layout.active) = .ok v → validate s v.copy = some (r, k) →
    LayoutKept s t ∧ .rejected tag r k ∈ (t.notices.get p).queue
  accepted : ∀ v, applyEdits p edits (Tentative.start s.layout.active) = .ok v → validate s v.copy = none →
    AcceptedAs s p tag edits frame v t

/-- The submit queue after the report that a job has finished: its arrival number has left the awaited set of its owner's entry (R103;
log 29). -/
def toldQueue (s : State) (j : Job) : List QueueEntry :=
  s.layout.queue.map fun e =>
    match e with
    | .transaction x =>
      .transaction
        { x with awaited := if x.port = j.owner then x.awaited.filter fun n => decide (n ≠ j.arrival) else x.awaited }
    | .withdrawal q => .withdrawal q

/-- What the application of one transaction while timing is stopped leaves alone. -/
structure AppliedAlone (s t : State) : Prop where
  blocks : t.links = s.links ∧ t.sessions = s.sessions ∧ t.alloc = s.alloc ∧ t.store = s.store ∧ t.arb = s.arb ∧
    t.engine = s.engine ∧ t.scan = s.scan ∧ t.power = s.power ∧ t.layout.staging = s.layout.staging
  timing : t.timing = { s.timing with pending := t.timing.pending }
  subscriptions : ∀ q, (t.notices.get q).frameSub = (s.notices.get q).frameSub

/-- The layout controller has taken the report that job j has finished (R103), from the state `s` in which the job is already out and its
owner told: while timing runs, and while every entry is still held, the awaited set alone changes (R30); while timing is stopped, an entry
that is no longer held is applied at once (R45). -/
structure JobReported (s : State) (j : Job) (t : State) : Prop where
  waits : (s.timing.run = .running ∨ ∀ e ∈ toldQueue s j, e.held = true) →
    t = { s with layout := { s.layout with queue := toldQueue s j } }
  applied : s.timing.run = .stopped → ∀ x ahead behind, toldQueue s j = ahead ++ .transaction x :: behind →
    x.awaited = [] → (∀ e ∈ ahead ++ behind, e.held = true) →
    AppliedAs s x.port x.tag x.edits s.timing.frameNumber t ∧ AppliedAlone s t ∧ t.layout.queue = ahead ++ behind

/-- The withdrawal of port p was applied (R44, R62, R86, R174). A freed entry keeps its unused fields (the model's choice, log 10). -/
structure WithdrawnAs (s : State) (p : Port) (t : State) : Prop where
  layout : t.layout.active =
    { s.layout.active with bands := s.layout.active.bands.filter fun b => decide (b.key.owner ≠ p) }
  fresh : t.fresh = { s.fresh with records := s.fresh.records.filter fun r => decide (r.key.owner ≠ p) }
  palette : t.pal =
    { s.pal with records := s.pal.records.set p { s.pal.records.get p with grant := none, unpublished := false } }
  surfaces : ∀ i : Fin 32,
    t.alloc.table.get i =
      if (s.alloc.table.get i).owner = p ∧ (s.alloc.table.get i).state = .retiring ∧
          (s.alloc.table.get i).pendingAbort = false then
        { s.alloc.table.get i with state := .free }
      else s.alloc.table.get i
  others : ∀ q, q ≠ p → t.sessions.get q = s.sessions.get q
  ended : (∀ i : Fin 32, (s.alloc.table.get i).state = .retiring → (s.alloc.table.get i).owner = p →
      (s.alloc.table.get i).pendingAbort = false) →
    t.sessions.get p =
      { state := .idle, epoch := (s.sessions.get p).epoch, label := none, withdrawalPending := false,
        surfacesPending := false }
  waits : ∀ i : Fin 32, (s.alloc.table.get i).state = .retiring → (s.alloc.table.get i).owner = p →
    (s.alloc.table.get i).pendingAbort = true →
    t.sessions.get p = { s.sessions.get p with withdrawalPending := false }

/-- One pass over the submit queue (R28, R46): the queue keeps the held entries in their order; a pass that finds held entries alone changes
nothing; the one entry that is not held is applied. -/
structure PassedAs (s : State) (frame : BitVec 16) (t : State) : Prop where
  queue : t.layout.queue = s.layout.queue.filter QueueEntry.held
  staging : t.layout.staging = s.layout.staging
  allHeld : (∀ e ∈ s.layout.queue, e.held = true) →
    t.layout = s.layout ∧ LayoutKept s t ∧ t.alloc = s.alloc ∧ t.sessions = s.sessions
  transaction : ∀ x ahead behind, s.layout.queue = ahead ++ .transaction x :: behind → x.awaited = [] →
    (∀ e ∈ ahead ++ behind, e.held = true) → AppliedAs s x.port x.tag x.edits frame t
  withdrawal : ∀ p ahead behind, s.layout.queue = ahead ++ .withdrawal p :: behind →
    (∀ e ∈ ahead ++ behind, e.held = true) → WithdrawnAs s p t

/-- A handle names a LIVE surface (R50). -/
def NamesLive (s : State) (h : Handle) : Prop :=
  (s.alloc.table.get h.index).state = .live ∧ (s.alloc.table.get h.index).gen = h.gen

/-- A band fails one check of R35, given the bands later in the list; the two checks on the whole transaction are no band's. -/
def FailsCheck (s : State) (l : Layout) (b : Band) (later : List Band) : Reason → Prop
  | .noSurface => ∃ h x y, b.part = .surface h x y ∧ ¬NamesLive s h
  | .notOwner => ∃ h x y, b.part = .surface h x y ∧ (s.alloc.table.get h.index).owner ≠ b.key.owner
  | .panelBounds => l.timing.vdl < b.first + b.count
  | .outOfRegion =>
    ¬((l.regions.get b.key.owner).top ≤ b.first ∧ b.first + b.count ≤ (l.regions.get b.key.owner).bottom + 1)
  | .overlap => ∃ c ∈ later, ∃ n, b.first ≤ n ∧ n < b.first + b.count ∧ c.first ≤ n ∧ n < c.first + c.count
  | .viewport => ∃ h x y, b.part = .surface h x y ∧
    ((s.alloc.table.get h.index).width < x + l.timing.hdw ∨ (s.alloc.table.get h.index).height < y + b.count)
  | .panAlign => ∃ h x y, b.part = .surface h x y ∧ ¬pixelsPerByte (s.alloc.table.get h.index).depth ∣ x
  | .palette => ∃ h x y, b.part = .surface h x y ∧ (s.alloc.table.get h.index).depth ≠ .d16 ∧
    ∀ g, (s.pal.records.get b.key.owner).grant = some g → g.size < 2 ^ (s.alloc.table.get h.index).depth.bits
  | .noBand | .bandLimit | .range => False

/-- The timing parameters lie in the ranges of R10. -/
def InRange (t : Timing) : Prop :=
  8 ≤ t.hdw ∧ t.hdw ≤ 1024 ∧ 8 ∣ t.hdw ∧ 16 ≤ t.hnd ∧ t.hnd ≤ 512 ∧ 1 ≤ t.vdl ∧ t.vdl ≤ 768 ∧ 1 ≤ t.vnd ∧ t.vnd ≤ 255 ∧
    1 ≤ t.divider ∧ t.divider ≤ 16

/-- A job request that passes checks 1 to 3 of R90: DUPLICATE, BUSY, or the job admitted, and started at once when the engine holds no job
(R90, R91, R93). -/
def JobOffered (c : Instr) (s : State) (p : Port) (j : Job) : Prop :=
  let held := s.engine.jobs
  let mine := held.filter fun k => decide (k.owner = p)
  (∀ k ∈ held, k.owner = p → k.tag = j.tag → (∀ k' ∈ held, k'.owner = p → k'.tag = j.tag → k' = k) →
    exec c s = .next (Replied s p .duplicate [k.state.code])) ∧
  ((∀ k ∈ mine, k.tag ≠ j.tag) → (8 ≤ held.length ∨ 4 ≤ mine.length) →
    exec c s = .next (Replied s p .busy [BitVec.ofNat 8 held.length, BitVec.ofNat 8 mine.length])) ∧
  (held = [] →
    exec c s =
      .next
        (Replied
          { s with
            engine := { jobs := [{ j with state := .running }], arrival := s.engine.arrival + 1#16 }
            arb := { s.arb with engineRow := true } }
          p .ok [0#8])) ∧
  ((∀ k ∈ mine, k.tag ≠ j.tag) → held.length < 8 → mine.length < 4 → (∃ k ∈ held, k.state ≠ .queued) →
    exec c s =
      .next
        (Replied { s with engine := { jobs := held ++ [j], arrival := s.engine.arrival + 1#16 } } p .ok
          [BitVec.ofNat 8 held.length]))

/-- The two refusals that PAL_SEEK, PAL_WRITE and PAL_READ share (R81), each with the cursor as it stands; an absent cursor writes no byte
(the model's choice, log 11). -/
def CursorRefusals (c : Instr) (s : State) (p : Port) : Prop :=
  let cursor : List Byte :=
    match (s.pal.records.get p).cursor with
    | some k => put16 k.offset ++ [k.component.code]
    | none => []
  (Submitted s p → exec c s = .next (Replied s p .pending cursor)) ∧
    (¬Submitted s p → (s.pal.records.get p).grant = none → exec c s = .next (Replied s p .noGrant cursor))

/-- A request with an index above 31 in a handle, at the given place of its payload, names no surface (R49, R50): it is answered
NO_SURFACE. -/
def NoSuchIndex (c : Instr) (s : State) (p : Port) (k : Kind) (place : Nat) (payload : List Byte) : Prop :=
  ∀ pl, Admitted s p k pl → k.payloadRange.1 ≤ pl.length → pl.length ≤ k.payloadRange.2 → 31 < num8 pl place →
    exec c s = .next (Replied s p .noSurface payload)

/-- The jobs behind a job that left: the oldest of them runs (R93). -/
def promoted : List Job → List Job
  | [] => []
  | k :: rest => { k with state := .running } :: rest

/-- A read of one line of a surface, through the frame store. -/
def lineOf (s : State) (e : SurfEntry) (y : Nat) : Nat → Byte := fun i => s.byteAt (e.firstBlock * 2048 + y * e.stride + i)

end Sys2Proof.Machine

open Sys2Proof Sys2Proof.Machine

/-! ### The queue of commands, and power-on -/

/-- The command at the front of the queue is the one a step runs, on the state with the queue's rest. -/
def Obligations.StepTakesFrontCommand : Prop :=
  ∀ (c : Instr) (rest : List Instr) (s : State), s.pending = c :: rest → step s = exec c { s with pending := rest }

/-- No command changes the queue of commands that are waiting. -/
def Obligations.ExecKeepsTheQueue : Prop :=
  ∀ (c : Instr) (s t : State), exec c s = .next t → t.pending = s.pending

/-- POWER_ON_RESET puts every block in its power-on state and latches the straps, whatever the state; the RSTn and CSn pins
keep their levels, and decide SDO. State.reset has the same values, at straps 0 and 0 and with these pins high (the model's
choice of inputs, log 9). -/
def Obligations.PowerOnPutsEveryBlockAtItsStart : Prop :=
  (∀ (v : Port) (k : Fin 4) (s : State), ∃ t, exec (.powerOnReset v k) s = .next t ∧ PowerOnValues v k t ∧
    (∀ p, (t.links.get p).pins = (s.links.get p).pins ∧
      sdoDriven t p = decide ((s.links.get p).rstLow = false ∧ (s.links.get p).csLow = true)) ∧
    panelOutputs t = ⟨false, false, false, false, []⟩ ∧
    logicEn t = false ∧ powerEn t = false ∧ ∀ p, attnHigh t p = true) ∧
  PowerOnValues .p0 0 State.reset ∧ State.reset.pending = [] ∧
    ∀ p, (State.reset.links.get p).pins = PortPins.high ∧ sdoDriven State.reset p = false

/-! ### Port links -/

/-- A well-formed request frame of a known kind that closes in READY or REPLY_READY is accepted for work: the reply in the slot is
discarded, the sequence recorded, the link EXECUTING; up to seven bits after the last whole byte do not count. A PORT_RESET frame, in any
link state, is the port reset. -/
def Obligations.RequestFrameIsAccepted : Prop :=
  ∀ (s : State) (p : Port) (k : Kind) (ep seq : Byte) (pl : List Byte) (extra : List Bool),
    pl.length ≤ 261 → extra.length < 8 → (s.links.get p).rstLow = false → (s.links.get p).csLow = false →
    (k ≠ .portReset → (s.links.get p).state ≠ .executing →
      exec (.requestWindowClose p false (bitsOfBytes (requestFrame k ep seq pl) ++ extra)) s =
        .next
          { s with
            links :=
              s.links.set p
                { s.links.get p with
                  state := .executing
                  slot := none
                  execSeq := seq
                  work := some { kind := k, epoch := ep, payload := pl, posted := false }
                  sdo := List.replicate (6 + pl.length) 0#8 } }) ∧
    (k = .portReset →
      exec (.requestWindowClose p false (bitsOfBytes (requestFrame k ep seq pl) ++ extra)) s = exec (.portReset p pl) s)

/-- A frame that closes in READY or REPLY_READY and fails a check of R150 is answered by the link itself, by the first check that fails:
SHORT, LENGTH, CRC, or BAD_KIND. -/
def Obligations.MalformedFrameIsAnswered : Prop :=
  ∀ (s : State) (p : Port) (bs : List Byte), bs ≠ [] → bs.head? ≠ some 0x5A#8 → (s.links.get p).rstLow = false →
    (s.links.get p).csLow = false → (s.links.get p).state ≠ .executing →
    let l := s.links.get p
    let answered (st : Status) (payload : List Byte) : Prop :=
      exec (.requestWindowClose p false (bitsOfBytes bs)) s =
        .next
          { s with
            links :=
              s.links.set p
                { l with
                  state := .replyReady
                  slot :=
                    some
                      { status := st, seq := bs.getD 2 0#8, overrun := l.overrun,
                        attention := decide ((s.notices.get p).queue ≠ []), payload := payload }
                  overrun := false
                  work := none
                  sdo := List.replicate bs.length 0#8 } }
    (bs.length < 6 → answered .badFrame (1#8 :: put16 (min bs.length 65535))) ∧
    (6 ≤ bs.length → (261 < num16 bs 3 ∨ bs.length ≠ 6 + num16 bs 3) →
      answered .badFrame (2#8 :: put16 (min bs.length 65535))) ∧
    (6 ≤ bs.length → num16 bs 3 ≤ 261 → bs.length = 6 + num16 bs 3 → crc8 bs ≠ 0#8 →
      answered .badFrame (3#8 :: put16 (min bs.length 65535))) ∧
    (6 ≤ bs.length → num16 bs 3 ≤ 261 → bs.length = 6 + num16 bs 3 → crc8 bs = 0#8 →
      (∀ k : Kind, k.code ≠ bs.getD 0 0#8) → answered .badKind [bs.getD 0 0#8])

/-- A frame that closes in EXECUTING, other than a well-formed PORT_RESET, is dropped: the overrun flag is set and nothing
else changes. A link held by RSTn ignores every window, and so is a window ignored during which RSTn was low; RSTN_RISE ends
the hold, and SDO is then driven if CSn is still low. While CSn is low in a fetch window no other window opens or closes (log
27). The mark that a window overlapped a low reset pin is the model's (log 18; for PORn also log 31), as are the SDO bytes of
a dropped frame (log 20) and that an RSTN_FALL on a pin already low changes nothing (log 2). -/
def Obligations.BusyOrHeldLinkTakesNoFrame : Prop :=
  (∀ (s : State) (p : Port) (bs : List Byte), bs ≠ [] → bs.head? ≠ some 0x5A#8 → (s.links.get p).rstLow = false →
    (s.links.get p).csLow = false → (s.links.get p).state = .executing →
    (∀ ep seq pl, pl.length ≤ 261 → bs ≠ requestFrame .portReset ep seq pl) →
    exec (.requestWindowClose p false (bitsOfBytes bs)) s =
      .next
        { s with
          links :=
            s.links.set p { s.links.get p with overrun := true, sdo := List.replicate bs.length 0#8 } }) ∧
  (∀ (s : State) (p : Port) (held : Bool) (bits : List Bool) (pl : List Byte),
    ((s.links.get p).rstLow = true →
      exec (.requestWindowClose p held bits) s = .next s ∧
        exec (.fetchWindowOpen p) s = .next { s with links := s.links.set p { s.links.get p with csLow := true } } ∧
        exec (.portReset p pl) s = .next s ∧ exec (.rstnFall p) s = .next s) ∧
    ((s.links.get p).csLow = true →
      exec (.requestWindowClose p held bits) s = .next s ∧ exec (.fetchWindowOpen p) s = .next s ∧
        exec (.portReset p pl) s = .next s) ∧
    (held = true → exec (.requestWindowClose p held bits) s = .next s) ∧
    (let t := { s with links := s.links.set p { s.links.get p with rstLow := false } }
     exec (.rstnRise p) s = .next t ∧ sdoDriven t p = (s.links.get p).csLow))

/-- A port reset, by a PORT_RESET frame or by RSTn falling, clears the port's link, whatever its state; with no session OPEN on the port
nothing else changes. The record of the SDO bytes of the PORT_RESET frame is the model's (log 20). -/
def Obligations.PortResetClearsTheLink : Prop :=
  ∀ (s : State) (p : Port) (pl : List Byte), pl.length ≤ 261 → (s.links.get p).rstLow = false →
    (s.sessions.get p).state ≠ .opened →
    ((s.links.get p).csLow = false → exec (.portReset p pl) s = .next (resetByFrame s p pl)) ∧
    exec (.rstnFall p) s = .next (resetByPin s p) ∧ sdoDriven (resetByPin s p) p = false

/-- A fetch window shows the reply its opening chose by the link state, with 0x00 around it; the CRC of every reply checks to
0. A reply of the slot shifted out whole, its CRC byte included, is consumed; otherwise the slot, the state and the overrun
flag stand. SDO is driven from the opening to the close, and the fetch progress returns to 0. The close of a window that the
link ignored, for a reset cut it short, raises CSn and changes nothing else. That the count of SCK edges comes with the
window's close, and the record of SDO bytes, are the model's (logs 20, 27). -/
def Obligations.FetchWindowShowsTheReply : Prop :=
  (∀ (s : State) (p : Port), (s.links.get p).rstLow = false → (s.links.get p).csLow = false →
    let l := s.links.get p
    let opened (r : Reply) (fromSlot : Bool) : Prop :=
      exec (.fetchWindowOpen p) s =
        .next
          { s with
            links :=
              s.links.set p
                { l with window := some { reply := r, fromSlot := fromSlot }, progress := 0, csLow := true } }
    let bare (st : Status) (seq : Byte) : Reply :=
      { status := st, seq := seq, overrun := l.overrun, attention := decide ((s.notices.get p).queue ≠ []),
        payload := [] }
    (∀ r, l.state = .replyReady → l.slot = some r → opened r true) ∧
    (l.state = .executing → opened (bare .pending l.execSeq) false) ∧
    (l.state = .ready → opened (bare .noReply 0#8) false) ∧
    (sdoDriven s p = false ∧ ∀ t, exec (.fetchWindowOpen p) s = .next t → sdoDriven t p = true)) ∧
  (∀ (s : State) (p : Port) (edges : Nat) (r : Reply) (fromSlot : Bool),
    (s.links.get p).window = some { reply := r, fromSlot := fromSlot } → (s.links.get p).progress = 0 →
    let l := s.links.get p
    let shifted := 0#8 :: (r.bytes.take (edges / 8) ++ List.replicate (edges / 8 - r.bytes.length) 0#8)
    crc8 r.bytes = 0#8 ∧ r.bytes.length = 6 + r.payload.length ∧
    (fromSlot = true → 6 + r.payload.length ≤ edges / 8 →
      exec (.fetchWindowClose p edges) s =
        .next
          { s with
            links :=
              s.links.set p { l with window := none, csLow := false, sdo := shifted, state := .ready, slot := none } }) ∧
    ((fromSlot = false ∨ edges / 8 < 6 + r.payload.length) →
      exec (.fetchWindowClose p edges) s =
        .next { s with links := s.links.set p { l with window := none, csLow := false, sdo := shifted } }) ∧
    ∀ t, exec (.fetchWindowClose p edges) s = .next t → sdoDriven t p = false) ∧
  ∀ (s : State) (p : Port) (edges : Nat), (s.links.get p).window = none →
    exec (.fetchWindowClose p edges) s = .next { s with links := s.links.set p { s.links.get p with csLow := false } }

/-- Every request frame a master builds is read back as the request it carries: kind, epoch, sequence and payload. -/
def Obligations.RequestFrameRoundTrip : Prop :=
  ∀ (k : Kind) (ep seq : Byte) (pl : List Byte), pl.length ≤ 261 →
    bytesOfBits (bitsOfBytes (requestFrame k ep seq pl)) = requestFrame k ep seq pl ∧
    crc8 (requestFrame k ep seq pl) = 0#8 ∧
    examineFrame (requestFrame k ep seq pl) =
      if k = .portReset then .portReset pl else .request k ep seq pl

/-- Every edit that a port may stage is read back from the EDIT payload that carries it, every field whole; and every payload that is read
as an edit gives one whose fields are in range. -/
def Obligations.EditRoundTrip : Prop :=
  ∀ (p : Port),
    (∀ e : Edit, e.stageable p = true → parseEdit p (putEdit e) = some e ∧ (putEdit e).length ≤ 18) ∧
    (∀ (pl : List Byte) (e : Edit), parseEdit p pl = some e → e.stageable p = true)

/-! ### Sessions -/

/-- The session manager's checks of R154, in order, for every request row: each refusal has an empty payload and changes nothing outside
the link. That any EDIT row takes an EDIT which names no edit kind is the model's choice (log 5). -/
def Obligations.SessionChecksInOrder : Prop :=
  ∀ (s : State) (c : Instr) (p : Port) (k : Kind) (ep : Byte) (pl : List Byte),
    requestRow c = some (p, k) → InWork s p k ep pl → rowNames c pl →
    let x := s.sessions.get p
    let answered (st : Status) : Prop := exec c s = .next (Replied s p st [])
    let free := k = .identify ∨ k = .openSession
    (k ∈ supervisorKinds → (p ≠ s.supv ∨ x.state ≠ .opened) → answered .notSupervisor) ∧
    (k ∉ supervisorKinds → ¬free → x.state ≠ .opened → answered .noSession) ∧
    ((k ∈ supervisorKinds → p = s.supv) → ¬free → x.state = .opened → ep ≠ x.epoch → answered .staleSession) ∧
    ((k ∈ supervisorKinds → p = s.supv) → (free ∨ (x.state = .opened ∧ ep = x.epoch)) →
      (pl.length < k.payloadRange.1 ∨ k.payloadRange.2 < pl.length) → answered .range)

/-- IDENTIFY is answered in every session state and with any epoch, and changes no state. -/
def Obligations.IdentifyReports : Prop :=
  ∀ (s : State) (p : Port) (ep : Byte), InWork s p .identify ep [] →
    exec (.identify p) s =
      .next
        (Replied s p .ok
          [0x41#8, 0x0A#8, 1#8, BitVec.ofNat 8 p.toNat, BitVec.ofNat 8 s.supv.toNat, (s.sessions.get p).state.code,
           (s.sessions.get p).epoch, BitVec.ofNat 8 s.preset.val])

/-- OPEN in IDLE opens a session with the next epoch, the label and an OFF vote; in OPEN it is refused with the epoch and the label, in
CLOSING with the epoch. -/
def Obligations.OpenActsBySessionState : Prop :=
  ∀ (s : State) (p : Port) (ep a b c d : Byte), InWork s p .openSession ep [a, b, c, d] →
    let x := s.sessions.get p
    let next := if x.epoch = 255#8 then 1#8 else x.epoch + 1#8
    (x.state = .idle →
      exec (.openSession p) s =
        .next
          (Replied
            { s with
              sessions :=
                s.sessions.set p
                  { state := .opened, epoch := next, label := some ⟨a, b, c, d⟩, withdrawalPending := false,
                    surfacesPending := false }
              power := { s.power with votes := s.power.votes.set p (some .off) }
              layout := { s.layout with record := s.layout.record.set p .noSubmit } }
            p .ok [next, if p = s.supv then 1#8 else 0#8])) ∧
    (∀ w : Label, x.state = .opened → x.label = some w →
      exec (.openSession p) s = .next (Replied s p .sessionOpen [x.epoch, w.b0, w.b1, w.b2, w.b3])) ∧
    (x.state = .closing → exec (.openSession p) s = .next (Replied s p .busy [x.epoch]))

/-- A session ends by CLOSE, by a port reset or by eviction, and while timing runs the teardown is the same in all of them, with the abort
of the port's running job and the power sequencer's answer to a loss of demand; the port's link is left as each cause says. The record of
the SDO bytes of a PORT_RESET frame is log 20, the reply to a discarded access log 22. -/
def Obligations.TeardownWhileRunning : Prop :=
  ∀ (s : State) (p : Port), Lawful s → s.timing.run = .running → (s.sessions.get p).state = .opened →
    (Admitted s p .closeSession [] →
      ∃ t, exec (.closeSession p) s = .next t ∧ TornDown s p t ∧
        t.links = (Replied s p .ok [(s.sessions.get p).epoch]).links) ∧
    (∀ pl, pl.length ≤ 261 → (s.links.get p).rstLow = false → (s.links.get p).csLow = false →
      ∃ t, exec (.portReset p pl) s = .next t ∧ TornDown (LinkReset s p) p t ∧ t.links = (resetByFrame s p pl).links) ∧
    ((s.links.get p).rstLow = false →
      ∃ t, exec (.rstnFall p) s = .next t ∧ TornDown (LinkReset s p) p t ∧ t.links = (resetByPin s p).links) ∧
    (∀ u, u ≠ p → Admitted s u .supEvictSession [BitVec.ofNat 8 p.toNat] →
      ∃ t, exec (.supEvictSession u) s = .next t ∧ TornDown s p t ∧ EvictedLink s p t)

/-- While timing is stopped the teardown applies the port's withdrawal within its own event, whatever its cause: the session is IDLE and
the port holds nothing, or, with a job of the port running, the session is CLOSING until the abort completes. That a freed entry keeps its
unused fields is the model's choice (log 10); the SDO bytes are log 20, the reply to a discarded access log 22. -/
def Obligations.TeardownWhileStopped : Prop :=
  ∀ (s : State) (p : Port), Lawful s → s.timing.run = .stopped → (s.sessions.get p).state = .opened →
    (Admitted s p .closeSession [] →
      ∃ t, exec (.closeSession p) s = .next t ∧ TornDownStopped s p t ∧
        t.links = (Replied s p .ok [(s.sessions.get p).epoch]).links) ∧
    (∀ pl, pl.length ≤ 261 → (s.links.get p).rstLow = false → (s.links.get p).csLow = false →
      ∃ t, exec (.portReset p pl) s = .next t ∧ TornDownStopped (LinkReset s p) p t ∧
        t.links = (resetByFrame s p pl).links) ∧
    ((s.links.get p).rstLow = false →
      ∃ t, exec (.rstnFall p) s = .next t ∧ TornDownStopped (LinkReset s p) p t ∧ t.links = (resetByPin s p).links) ∧
    (∀ u, u ≠ p → Admitted s u .supEvictSession [BitVec.ofNat 8 p.toNat] →
      ∃ t, exec (.supEvictSession u) s = .next t ∧ TornDownStopped s p t ∧ EvictedLink s p t)

/-- A port whose session is IDLE has no bands, surfaces, grant, jobs, queue entry, vote or notices, and no charge. -/
def Obligations.IdlePortHoldsNothing : Prop :=
  ∀ (s : State) (p : Port), Lawful s → (s.sessions.get p).state = .idle →
    (∀ b ∈ s.layout.active.bands, b.key.owner ≠ p) ∧
    (∀ e ∈ s.alloc.table.toList, e.state ≠ .free → e.owner ≠ p) ∧ s.alloc.charge.get p = 0 ∧
    (s.pal.records.get p).grant = none ∧ (∀ j ∈ s.engine.jobs, j.owner ≠ p) ∧
    (∀ e ∈ s.layout.queue, e.port ≠ p) ∧ s.power.votes.get p = none ∧ (s.notices.get p).queue = []

/-- SUP_EVICT_SESSION answers by the first case of R172 that applies. -/
def Obligations.EvictSessionAnswers : Prop :=
  ∀ (s : State) (u : Port) (b : Byte), Admitted s u .supEvictSession [b] →
    (3 < b.toNat → exec (.supEvictSession u) s = .next (Replied s u .range [])) ∧
    (b.toNat = u.toNat → exec (.supEvictSession u) s = .next (Replied s u .range [])) ∧
    (∀ q : Port, q ≠ u → b.toNat = q.toNat →
      ((s.sessions.get q).state = .idle → exec (.supEvictSession u) s = .next (Replied s u .none [0#8])) ∧
      ((s.sessions.get q).state = .closing → exec (.supEvictSession u) s = .next (Replied s u .none [2#8])) ∧
      (∀ w : Label, (s.sessions.get q).state = .opened → (s.sessions.get q).label = some w →
        ∃ t, exec (.supEvictSession u) s = .next t ∧
          (t.links.get u).slot.map Reply.status = some .ok ∧
          (t.links.get u).slot.map Reply.payload =
            some [(s.sessions.get q).epoch, w.b0, w.b1, w.b2, w.b3, (t.sessions.get q).state.code]))

/-- DEVICE_RESET ends every session at once and clears what sessions held and every setting but the panel timing; epochs,
generations, the frame store, the palette's colours and the timing generator's state are kept, and the supervisor's reply
survives. An access in service goes on, a row of a job that is gone for no job (R71, R106). That a freed entry keeps its
unused fields is the model's choice (log 10); the NO_SESSION replies carry no payload and the flag at 0 (logs 8, 28). -/
def Obligations.DeviceResetClearsAllButTheTiming : Prop :=
  ∀ (s : State) (p : Port), LinkLaw s → Admitted s p .deviceReset [] →
    ∃ t, exec (.deviceReset p) s = .next t ∧ t.supv = s.supv ∧ t.preset = s.preset ∧
      (∀ q, t.sessions.get q =
        { state := .idle, epoch := (s.sessions.get q).epoch, label := none, withdrawalPending := false,
          surfacesPending := false }) ∧
      (∀ q, t.notices.get q = { queue := [], lost := false, frameSub := false }) ∧
      t.layout.active =
        { bands := [], background := ⟨0#6, 0#6, 0#6⟩, staleColour := ⟨63#6, 0#6, 63#6⟩,
          regions := PerPort.every { top := 0, bottom := 767 }, timing := s.layout.active.timing } ∧
      t.layout.queue = [] ∧ (∀ q, t.layout.staging.get q = [] ∧ t.layout.record.get q = .noSubmit) ∧
      t.fresh = { records := [], staleSet := s.fresh.staleSet } ∧
      (∀ i : Fin 32, t.alloc.table.get i = { s.alloc.table.get i with state := .free, pendingAbort := false }) ∧
      t.alloc.free = [{ start := 0, length := 256 }] ∧
      (∀ q, t.alloc.charge.get q = 0 ∧ t.alloc.quota.get q = 64 ∧ t.alloc.withdrawalOut.get q = false ∧
        t.alloc.reportOwed.get q = false) ∧
      t.store = s.store ∧
      t.arb =
        { turn := .ports, lineFetch := s.arb.lineFetch, engineRow := false, ports := [],
          busy :=
            match s.arb.busy with
            | some (.engineRow _) => some (.engineRow true)
            | other => other } ∧
      t.pal.active = s.pal.active ∧ t.pal.draft = s.pal.draft ∧
      (∀ q, t.pal.records.get q = { grant := none, cursor := none, unpublished := false }) ∧
      t.engine = { jobs := [], arrival := 0#16 } ∧ t.timing = s.timing ∧ t.scan = s.scan ∧
      t.power =
        { state :=
            if s.power.state = .lit ∨
                ((s.power.state = .logicLead ∨ s.power.state = .logicHeld) ∧ s.power.stopRequested = false) then
              .logicTail
            else s.power.state
          votes := PerPort.every none, inhibit := false, lead := 2, tail := 60
          frameCount :=
            if s.power.state = .lit ∨
                ((s.power.state = .logicLead ∨ s.power.state = .logicHeld) ∧ s.power.stopRequested = false) then 0
            else s.power.frameCount
          target :=
            if s.power.state = .lit ∨
                ((s.power.state = .logicLead ∨ s.power.state = .logicHeld) ∧ s.power.stopRequested = false) then 60
            else s.power.target
          stopRequested := s.power.stopRequested } ∧
      (t.links.get p).state = .replyReady ∧
      (t.links.get p).slot =
        some { status := .ok, seq := (s.links.get p).execSeq, overrun := (s.links.get p).overrun,
               attention := false, payload := [] } ∧
      (∀ q, q ≠ p → (∀ a ∈ s.arb.ports, a.port ≠ q) → t.links.get q = s.links.get q) ∧
      (∀ q, q ≠ p → (∃ a ∈ s.arb.ports, a.port = q) → waitsForStore s q →
        t.links.get q =
          { s.links.get q with
            state := .replyReady
            slot :=
              some { status := .noSession, seq := (s.links.get q).execSeq, overrun := (s.links.get q).overrun,
                     attention := false, payload := [] }
            overrun := false
            work := none })

/-! ### Notices -/

/-- NOTICE_READ removes and returns the oldest notices with the lost flag, then clears it; NOTICE_SUBSCRIBE sets the subscription. Values
out of range are answered RANGE, without a payload (log 28), and change nothing. -/
def Obligations.NoticeRequestsAct : Prop :=
  ∀ (s : State) (p : Port) (v : Byte),
    let q := s.notices.get p
    (Admitted s p .noticeRead [v] →
      exec (.noticeRead p) s =
        .next
          (if v.toNat = 0 ∨ 8 < v.toNat then Replied s p .range []
           else
             Replied { s with notices := s.notices.set p { q with queue := q.queue.drop v.toNat, lost := false } } p .ok
               ([if q.lost then 1#8 else 0#8, BitVec.ofNat 8 (min v.toNat q.queue.length)] ++
                 (q.queue.take v.toNat).flatMap Notice.record))) ∧
    (Admitted s p .noticeSubscribe [v] →
      exec (.noticeSubscribe p) s =
        .next
          (if 1 < v.toNat then Replied s p .range []
           else Replied { s with notices := s.notices.set p { q with frameSub := decide (v = 1#8) } } p .ok [v]))

/-- A posting, by R179 and R180: a FRAME or POWER notice takes its partner's place, a STALE notice of a key already queued is absorbed, an
outcome notice is appended, any other is appended while fewer than 15 stand, and at 15 it is dropped with the lost flag set. -/
def Obligations.PostingFollowsTheQueueRules : Prop :=
  ∀ (s : State) (p : Port) (n : Notice),
    let q := s.notices.get p
    let others := (q.queue.filter fun m => !m.isOutcome).length
    let kept (queue : List Notice) (lost : Bool) : State :=
      { s with notices := s.notices.set p { q with queue := queue, lost := lost } }
    ((s.sessions.get p).state ≠ .opened → post (p, n) s = s) ∧
    ((s.sessions.get p).state = .opened →
      (∀ f ahead g behind, n = .frame f → q.queue = ahead ++ .frame g :: behind →
        (∀ m ∈ ahead ++ behind, m.isFrame = false) → post (p, n) s = kept (ahead ++ n :: behind) q.lost) ∧
      (∀ f ahead g behind, n = .power f → q.queue = ahead ++ .power g :: behind →
        (∀ m ∈ ahead ++ behind, m.isPower = false) → post (p, n) s = kept (ahead ++ n :: behind) q.lost) ∧
      (∀ k, n = .stale k → n ∈ q.queue → post (p, n) s = s) ∧
      (n.isOutcome = true → post (p, n) s = kept (q.queue ++ [n]) q.lost) ∧
      (n.isOutcome = false → (n.isFrame = true → ∀ m ∈ q.queue, m.isFrame = false) →
        (n.isPower = true → ∀ m ∈ q.queue, m.isPower = false) → (∀ k, n = .stale k → n ∉ q.queue) →
        (others < 15 → post (p, n) s = kept (q.queue ++ [n]) q.lost) ∧
        (15 ≤ others → post (p, n) s = kept q.queue true)))

/-! ### Surfaces and pixels -/

/-- SURF_ALLOC: the checks of R54 in order, then the surface made in one step in the lowest FREE entry from the first extent that is long
enough (R55). That TABLE_FULL carries no payload is log 28. -/
def Obligations.SurfAllocTakesTheFirstFit : Prop :=
  ∀ (s : State) (p : Port) (w h : Nat) (d : Byte), w < 65536 → h < 65536 →
    Admitted s p .surfAlloc (put16 w ++ put16 h ++ [d]) →
    let a := s.alloc
    let answered (st : Status) (payload : List Byte) : Prop := exec (.surfAlloc p) s = .next (Replied s p st payload)
    (¬(8 ≤ w ∧ w ≤ 2048 ∧ 1 ≤ h ∧ h ≤ 1024 ∧ d.toNat ∈ [1, 2, 4, 8, 16]) → answered .badGeometry [0#8, 0#8]) ∧
    (∀ dep : Depth, dep.bits = d.toNat → 8 ≤ w → w ≤ 2048 → 1 ≤ h → h ≤ 1024 →
      let stride := ((w * dep.bits + 7) / 8 + 7) / 8 * 8
      let n := (stride * h + 2047) / 2048
      (256 < n → answered .badGeometry (put16 n)) ∧
      (n ≤ 256 → (∀ i : Fin 32, (a.table.get i).state ≠ .free) → answered .tableFull []) ∧
      (∀ i : Fin 32, n ≤ 256 → (a.table.get i).state = .free → (∀ j : Fin 32, j < i → (a.table.get j).state ≠ .free) →
        (a.quota.get p < a.charge.get p + n → answered .quota (put16 (a.charge.get p) ++ put16 (a.quota.get p))) ∧
        (∀ longest, a.charge.get p + n ≤ a.quota.get p → (∀ x ∈ a.free, x.length ≤ longest) → longest < n →
          (longest = 0 ∨ ∃ x ∈ a.free, x.length = longest) → answered .noSpace (put16 longest)) ∧
        (∀ ahead x behind, a.charge.get p + n ≤ a.quota.get p → a.free = ahead ++ x :: behind →
          (∀ y ∈ ahead, y.length < n) → n ≤ x.length →
          exec (.surfAlloc p) s =
            .next
              (Replied
                { s with
                  alloc :=
                    { a with
                      table :=
                        a.table.set i.val
                          { state := .live, gen := (a.table.get i).gen + 1#8, owner := p, width := w, height := h,
                            depth := dep, stride := stride, firstBlock := x.start, blockCount := n,
                            pendingAbort := false }
                          i.isLt
                      free :=
                        ahead ++
                          (if x.length = n then behind
                           else { start := x.start + n, length := x.length - n } :: behind)
                      charge := a.charge.set p (a.charge.get p + n) } }
                p .ok
                ([BitVec.ofNat 8 i.val, (a.table.get i).gen + 1#8] ++ put16 stride ++ put16 x.start ++ put16 n)))))

/-- SURF_FREE: the refusals of R58; a surface that no job names becomes FREE at once; a surface that the running job alone
names becomes RETIRING while that job is aborted; queued jobs that name it are cancelled and counted, the port is told of
each by a JOB_CANCELLED notice (R101), and their end is reported to the layout controller, which while timing is stopped
applies an entry that is no longer held. That a freed entry keeps its unused fields is the model's choice (log 10), and the
refusals carry no payload (log 28). -/
def Obligations.SurfFreeReleases : Prop :=
  (∀ s p, NoSuchIndex (.surfFree p) s p .surfFree 0 []) ∧
  ∀ (s : State) (p : Port) (h : Handle), Admitted s p .surfFree (putHandle h) →
    let e := s.alloc.table.get h.index
    let own := e.state = .live ∧ e.gen = h.gen ∧ e.owner = p
    let shown := ∃ b ∈ s.layout.active.bands, ∃ x y, b.part = .surface h x y
    let pending := ∃ t, QueueEntry.transaction t ∈ s.layout.queue ∧ t.port = p ∧
      ∃ d ∈ t.edits, (∃ n, d = .bandSurface n h) ∨ ∃ b x y, d = .bandPut b ∧ b.part = .surface h x y
    (¬own → exec (.surfFree p) s = .next (Replied s p .noSurface [])) ∧
    (own → shown → exec (.surfFree p) s = .next (Replied s p .inUse [])) ∧
    (own → (s.layout.queue.map QueueEntry.port).Nodup → pending → exec (.surfFree p) s = .next (Replied s p .inUse [])) ∧
    (own → ¬shown → ¬pending → (∀ j ∈ s.engine.jobs, h ∉ j.handles) →
      exec (.surfFree p) s =
        .next
          (Replied
            { s with
              alloc :=
                { s.alloc with
                  table := s.alloc.table.set h.index.val { e with state := .free } h.index.isLt
                  free := releaseRun { start := e.firstBlock, length := e.blockCount } s.alloc.free
                  charge := s.alloc.charge.set p (s.alloc.charge.get p - e.blockCount) } }
            p .ok [0#8, 0#8])) ∧
    (∀ j rest, own → ¬shown → ¬pending → s.engine.jobs = j :: rest → j.state = .running → h ∈ j.handles →
      (∀ k ∈ rest, h ∉ k.handles) →
      ∃ t, exec (.surfFree p) s = .next t ∧
        t.engine = { s.engine with jobs := { j with state := .aborting } :: rest } ∧
        (t.alloc.table.get h.index).state = .retiring ∧ (t.alloc.table.get h.index).pendingAbort = true ∧
        t.alloc.free = s.alloc.free ∧ t.alloc.charge = s.alloc.charge ∧ t.store = s.store ∧
        t.layout = s.layout ∧ t.notices = s.notices ∧ t.links = (Replied s p .ok [1#8, 0#8]).links) ∧
    (own → ¬shown → ¬pending → Lawful s →
      let gone :=
        (s.engine.jobs.filter fun j => decide (j.state = .queued) && decide (h ∈ j.handles)).map Job.arrival
      let told :=
        s.layout.queue.map fun e =>
          match e with
          | .transaction x =>
            .transaction { x with awaited := if x.port = p then x.awaited.filter fun n => decide (n ∉ gone) else x.awaited }
          | .withdrawal q => .withdrawal q
      let stays := s.engine.jobs.filter fun j => !(decide (j.state = .queued) && decide (h ∈ j.handles))
      let tags := (s.engine.jobs.filter fun j => decide (j.state = .queued) && decide (h ∈ j.handles)).map Job.tag
      ∃ t, exec (.surfFree p) s = .next t ∧
        t.engine =
          { s.engine with
            jobs := stays.map fun j => if j.state = .running ∧ h ∈ j.handles then { j with state := .aborting } else j } ∧
        t.links =
          (Replied { s with notices := t.notices } p .ok
            [if ∃ j ∈ stays, h ∈ j.handles then 1#8 else 0#8, BitVec.ofNat 8 gone.length]).links ∧
        t.store = s.store ∧ t.arb = s.arb ∧
        ((∀ j ∈ stays, h ∉ j.handles) →
          t.alloc =
            { s.alloc with
              table := s.alloc.table.set h.index.val { e with state := .free } h.index.isLt
              free := releaseRun { start := e.firstBlock, length := e.blockCount } s.alloc.free
              charge := s.alloc.charge.set p (s.alloc.charge.get p - e.blockCount) }) ∧
        (∀ j ∈ stays, h ∈ j.handles →
          t.alloc = { s.alloc with table := t.alloc.table } ∧
          ∀ i : Fin 32,
            t.alloc.table.get i =
              { s.alloc.table.get i with
                state := if i = h.index then .retiring else (s.alloc.table.get i).state
                pendingAbort := (t.alloc.table.get i).pendingAbort } ∧
            ((t.alloc.table.get i).pendingAbort = true ↔ ((s.alloc.table.get i).pendingAbort = true ∨ NamedBy s j i))) ∧
        (∀ tag ∈ tags, .jobCancelled tag ∈ (t.notices.get p).queue ∨ (t.notices.get p).lost = true) ∧
        ((s.timing.run = .running ∨ ∀ e ∈ told, e.held = true) →
          t.layout = { s.layout with queue := told } ∧
          t.notices = s.notices.set p ((tags.map Notice.jobCancelled).foldl NoticeQueue.take (s.notices.get p))) ∧
        (s.timing.run = .stopped → ∀ x ahead behind, told = ahead ++ .transaction x :: behind → x.awaited = [] →
          (∀ e ∈ ahead ++ behind, e.held = true) →
          AppliedAs s x.port x.tag x.edits s.timing.frameNumber t ∧ t.layout.queue = ahead ++ behind))

/-- SURF_INFO reports a LIVE or RETIRING surface of the port with its charge and quota, or the charge and quota alone, and changes
nothing. -/
def Obligations.SurfInfoReports : Prop :=
  (∀ s p, NoSuchIndex (.surfInfo p) s p .surfInfo 0
    (put16 (s.alloc.charge.get p) ++ put16 (s.alloc.quota.get p))) ∧
  ∀ (s : State) (p : Port) (h : Handle), Admitted s p .surfInfo (putHandle h) →
    let e := s.alloc.table.get h.index
    let account := put16 (s.alloc.charge.get p) ++ put16 (s.alloc.quota.get p)
    (e.state ≠ .free → e.gen = h.gen → e.owner = p →
      exec (.surfInfo p) s =
        .next
          (Replied s p .ok
            ([e.state.code, e.gen] ++ put16 e.width ++ put16 e.height ++ [BitVec.ofNat 8 e.depth.bits] ++
              put16 e.stride ++ put16 e.firstBlock ++ put16 e.blockCount ++
              [if e.pendingAbort then 1#8 else 0#8] ++ account))) ∧
    (¬(e.state ≠ .free ∧ e.gen = h.gen ∧ e.owner = p) →
      exec (.surfInfo p) s = .next (Replied s p .noSurface account))

/-- PIX_WRITE and PIX_READ post one access limited to the surface's bytes, behind the accesses that arrived before it; a request that
reaches no byte is answered at once, and a handle that names no LIVE surface of the port is answered NO_SURFACE. -/
def Obligations.PixelAccessIsPosted : Prop :=
  (∀ s p, NoSuchIndex (.pixWrite p) s p .pixWrite 0 [] ∧ NoSuchIndex (.pixRead p) s p .pixRead 0 []) ∧
  ∀ (s : State) (p : Port) (h : Handle) (offset : Nat), offset < 16777216 →
    let e := s.alloc.table.get h.index
    let own := e.state = .live ∧ e.gen = h.gen ∧ e.owner = p
    let size := e.stride * e.height
    let posted (op : AccessOp) (count : Nat) : State :=
      { s with
        links :=
          s.links.set p
            { s.links.get p with work := (s.links.get p).work.map fun w => { w with posted := true } }
        arb :=
          { s.arb with
            ports :=
              s.arb.ports ++
                [{ port := p, addr := e.firstBlock * 2048 + offset, op := op,
                   status := if offset + count ≤ size then .ok else .range }] } }
    (∀ data : List Byte, data.length ≤ 256 → Admitted s p .pixWrite (putHandle h ++ put24 offset ++ data) →
      (¬own → exec (.pixWrite p) s = .next (Replied s p .noSurface [])) ∧
      (own → (data = [] ∨ size ≤ offset) → exec (.pixWrite p) s = .next (Replied s p .range [0#8, 0#8])) ∧
      (own → data ≠ [] → offset < size →
        exec (.pixWrite p) s = .next (posted (.write (data.take (size - offset))) data.length))) ∧
    (∀ count : Nat, count < 65536 → Admitted s p .pixRead (putHandle h ++ put24 offset ++ put16 count) →
      (¬own → exec (.pixRead p) s = .next (Replied s p .noSurface [])) ∧
      (own → (count = 0 ∨ 256 < count ∨ size ≤ offset) → exec (.pixRead p) s = .next (Replied s p .range [])) ∧
      (own → 1 ≤ count → count ≤ 256 → offset < size →
        exec (.pixRead p) s = .next (posted (.read (min count (size - offset))) count)))

/-- SUP_QUOTA replaces the named port's quota at once and reports that port's charge; a port above 3 or a count above 256 is answered
RANGE and changes nothing. -/
def Obligations.QuotaIsReplaced : Prop :=
  ∀ (s : State) (p : Port) (b : Byte) (n : Nat), n < 65536 → Admitted s p .supQuota ([b] ++ put16 n) →
    ((3 < b.toNat ∨ 256 < n) → exec (.supQuota p) s = .next (Replied s p .range [])) ∧
    (∀ q : Port, b.toNat = q.toNat → n ≤ 256 →
      exec (.supQuota p) s =
        .next
          (Replied { s with alloc := { s.alloc with quota := s.alloc.quota.set q n } } p .ok
            (put16 (s.alloc.charge.get q))))

/-! ### The palette -/

/-- PAL_GRANT: the checks of R75 in order; the grant made is the lowest aligned base clear of every grant, with its entries black in both
arrays, the cursor at (0, red) and the mark clear. -/
def Obligations.PalGrantTakesTheLowestBase : Prop :=
  ∀ (s : State) (p : Port) (size : Nat), size < 65536 → Admitted s p .palGrant (put16 size) →
    let clear (base n : Nat) : Prop :=
      ∀ q g, (s.pal.records.get q).grant = some g → base + n ≤ g.base ∨ g.base + g.size ≤ base
    let answered (st : Status) (payload : List Byte) : Prop := exec (.palGrant p) s = .next (Replied s p st payload)
    (size ∉ [2, 4, 8, 16, 32, 64, 128, 256] → answered .range []) ∧
    (∀ g, size ∈ [2, 4, 8, 16, 32, 64, 128, 256] → (s.pal.records.get p).grant = some g →
      answered .held (put16 g.base ++ put16 g.size)) ∧
    (∀ largest, size ∈ [2, 4, 8, 16, 32, 64, 128, 256] → (s.pal.records.get p).grant = none →
      (∀ i, i < 256 / size → ¬clear (i * size) size) →
      (∀ n ∈ [2, 4, 8, 16, 32, 64, 128, 256], (∃ i, i < 256 / n ∧ clear (i * n) n) → n ≤ largest) →
      (largest = 0 ∨ (largest ∈ [2, 4, 8, 16, 32, 64, 128, 256] ∧ ∃ i, i < 256 / largest ∧ clear (i * largest) largest)) →
      answered .noSpace (put16 largest)) ∧
    (∀ i, size ∈ [2, 4, 8, 16, 32, 64, 128, 256] → (s.pal.records.get p).grant = none → i < 256 / size →
      clear (i * size) size → (∀ j, j < i → ¬clear (j * size) size) →
      ∃ active draft,
        exec (.palGrant p) s =
          .next
            (Replied
              { s with
                pal :=
                  { active := active, draft := draft,
                    records :=
                      s.pal.records.set p
                        { grant := some { base := i * size, size := size },
                          cursor := some { offset := 0, component := .red }, unpublished := false } } }
              p .ok (put16 (i * size) ++ put16 size)) ∧
        ∀ n : Fin 256,
          active.get n = (if i * size ≤ n.val ∧ n.val < i * size + size then ⟨0#6, 0#6, 0#6⟩ else s.pal.active.get n) ∧
          draft.get n = (if i * size ≤ n.val ∧ n.val < i * size + size then ⟨0#6, 0#6, 0#6⟩ else s.pal.draft.get n))

/-- PAL_RELEASE: the checks of R77 in order, then the port's grant, cursor and mark go and both arrays keep their values
(R78). PAL_SEEK: the refusals of R81, then the cursor moves within the grant or stays where it was (R80). That an absent
cursor writes no byte in a NO_GRANT reply is the model's choice (log 11), and the refusals of PAL_RELEASE carry no payload
(log 28). -/
def Obligations.PalReleaseAndSeekAct : Prop :=
  ∀ (s : State) (p : Port),
    let r := s.pal.records.get p
    let indexed := ∃ b ∈ s.layout.active.bands, b.key.owner = p ∧
      ∃ h x y, b.part = .surface h x y ∧ (s.alloc.table.get h.index).depth ≠ .d16
    let put (c : Option Cursor) : List Byte :=
      match c with
      | some c => put16 c.offset ++ [c.component.code]
      | none => []
    (Admitted s p .palRelease [] →
      (Submitted s p → exec (.palRelease p) s = .next (Replied s p .inUse [])) ∧
      (¬Submitted s p → r.grant = none → exec (.palRelease p) s = .next (Replied s p .noGrant [])) ∧
      (∀ g, ¬Submitted s p → r.grant = some g → indexed → exec (.palRelease p) s = .next (Replied s p .inUse [])) ∧
      (∀ g, ¬Submitted s p → r.grant = some g → ¬indexed →
        exec (.palRelease p) s =
          .next
            (Replied
              { s with
                pal :=
                  { s.pal with
                    records := s.pal.records.set p { grant := none, cursor := none, unpublished := false } } }
              p .ok (put16 g.base ++ put16 g.size)))) ∧
    (∀ offset : Byte, Admitted s p .palSeek [offset] →
      (Submitted s p → exec (.palSeek p) s = .next (Replied s p .pending (put r.cursor))) ∧
      (¬Submitted s p → r.grant = none → exec (.palSeek p) s = .next (Replied s p .noGrant (put r.cursor))) ∧
      (∀ g, ¬Submitted s p → r.grant = some g → g.size ≤ offset.toNat →
        exec (.palSeek p) s = .next (Replied s p .range (put r.cursor))) ∧
      (∀ g, ¬Submitted s p → r.grant = some g → offset.toNat < g.size →
        exec (.palSeek p) s =
          .next
            (Replied
              { s with
                pal :=
                  { s.pal with
                    records :=
                      s.pal.records.set p { r with cursor := some { offset := offset.toNat, component := .red } } } }
              p .ok (put (some { offset := offset.toNat, component := .red })))))

/-- The place of a component in its grant, counted in components from the grant's first. -/
def Sys2Proof.Machine.Component.place : Component → Nat
  | .red => 0
  | .green => 1
  | .blue => 2

/-- The cursor at a place of the grant: place 3 × size is the parked cursor. -/
def Sys2Proof.Machine.cursorAt (place : Nat) : Cursor :=
  { offset := place / 3,
    component := if place % 3 = 0 then .red else if place % 3 = 1 then .green else .blue }

/-- PAL_WRITE: the refusals of R81; otherwise it stores component bytes from the cursor on until the cursor parks: byte i
goes to the i-th component from the cursor, its low six bits alone, and nothing else of the draft array changes; the count
stored and the cursor come back, in that order (log 11), and the mark is set when a byte was stored. -/
def Obligations.PalWriteStoresComponents : Prop :=
  (∀ (s : State) (p : Port) (bytes : List Byte), Admitted s p .palWrite bytes → bytes.length ≤ 261 →
    CursorRefusals (.palWrite p) s p) ∧
  ∀ (s : State) (p : Port) (bytes : List Byte) (g : Grant) (place : Nat),
    Admitted s p .palWrite bytes → bytes.length ≤ 261 → ¬Submitted s p → (s.pal.records.get p).grant = some g →
    g.base + g.size ≤ 256 → place ≤ 3 * g.size → (s.pal.records.get p).cursor = some (cursorAt place) →
    let n := min bytes.length (3 * g.size - place)
    let r := s.pal.records.get p
    let put (place : Nat) : List Byte := put16 (cursorAt place).offset ++ [(cursorAt place).component.code]
    ((bytes = [] ∨ 240 < bytes.length) →
      exec (.palWrite p) s = .next (Replied s p .range ([0#8, 0#8] ++ put place))) ∧
    (bytes ≠ [] → bytes.length ≤ 240 →
      ∃ draft,
        exec (.palWrite p) s =
          .next
            (Replied
              { s with
                pal :=
                  { s.pal with
                    draft := draft
                    records :=
                      s.pal.records.set p
                        { r with cursor := some (cursorAt (place + n)), unpublished := r.unpublished || decide (0 < n) } } }
              p (if n = bytes.length then .ok else .range) (put16 n ++ put (place + n))) ∧
        ∀ (i : Fin 256) (c : Component),
          Colour.component (draft.get i) c =
            if g.base ≤ i.val ∧ place ≤ 3 * (i.val - g.base) + c.place ∧ 3 * (i.val - g.base) + c.place < place + n then
              (bytes.getD (3 * (i.val - g.base) + c.place - place) 0#8).setWidth 6
            else Colour.component (s.pal.draft.get i) c)

/-- PAL_READ: the refusals of R81; otherwise it returns the draft's components from the cursor on, each in the low six bits
of its byte, until the count or the parked cursor, and moves the cursor past them; the data stand ahead of the cursor in the
reply (log 11); both arrays and the mark stand. -/
def Obligations.PalReadReturnsComponents : Prop :=
  (∀ (s : State) (p : Port) (count : Byte), Admitted s p .palRead [count] → CursorRefusals (.palRead p) s p) ∧
  ∀ (s : State) (p : Port) (count : Byte) (g : Grant) (place : Nat),
    Admitted s p .palRead [count] → ¬Submitted s p → (s.pal.records.get p).grant = some g →
    g.base + g.size ≤ 256 → place ≤ 3 * g.size → (s.pal.records.get p).cursor = some (cursorAt place) →
    let n := min count.toNat (3 * g.size - place)
    let r := s.pal.records.get p
    let put (place : Nat) : List Byte := put16 (cursorAt place).offset ++ [(cursorAt place).component.code]
    ((count.toNat = 0 ∨ 240 < count.toNat) → exec (.palRead p) s = .next (Replied s p .range (put place))) ∧
    (1 ≤ count.toNat → count.toNat ≤ 240 →
      ∃ bytes : List Byte, bytes.length = n ∧
        exec (.palRead p) s =
          .next
            (Replied
              { s with
                pal :=
                  { s.pal with
                    records := s.pal.records.set p { r with cursor := some (cursorAt (place + n)) } } }
              p (if n = count.toNat then .ok else .range) (bytes ++ put (place + n))) ∧
        ∀ (i : Fin 256) (c : Component), g.base ≤ i.val → place ≤ 3 * (i.val - g.base) + c.place →
          3 * (i.val - g.base) + c.place < place + n →
          bytes.getD (3 * (i.val - g.base) + c.place - place) 0#8 = (Colour.component (s.pal.draft.get i) c).setWidth 8)

/-! ### Layout transactions -/

/-- An EDIT row: the checks of R19 in order, then the edit joins the end of the port's staging area. An EDIT that names no edit kind may be
taken under any of the nine rows (the model's choice, log 5). -/
def Obligations.EditIsStaged : Prop :=
  ∀ (s : State) (c : Instr) (p : Port) (code : Nat) (pl : List Byte), editRow c = some (p, code) →
    Admitted s p .edit pl → 1 ≤ pl.length → pl.length ≤ 18 →
    let staged := s.layout.staging.get p
    let answered (st : Status) (payload : List Byte) : Prop := exec c s = .next (Replied s p st payload)
    (num8 pl 0 = code →
      (Submitted s p → answered .pending []) ∧
      (¬Submitted s p → 8 ≤ code → p ≠ s.supv → answered .notSupervisor []) ∧
      (¬Submitted s p → (code < 8 ∨ p = s.supv) → parseEdit p pl = none → answered .range []) ∧
      (∀ e, ¬Submitted s p → (code < 8 ∨ p = s.supv) → parseEdit p pl = some e →
        (8 ≤ staged.length → answered .full []) ∧
        (staged.length < 8 →
          exec c s =
            .next
              (Replied { s with layout := { s.layout with staging := s.layout.staging.set p (staged ++ [e]) } } p .ok
                [BitVec.ofNat 8 (staged.length + 1)])))) ∧
    (num8 pl 0 ∉ [1, 2, 3, 4, 8, 9, 10, 11, 12] →
      (Submitted s p → answered .pending []) ∧ (¬Submitted s p → answered .range []))

/-- What an EDIT payload must be to be staged, and the edit it stages: its length, and each field in the range R20 or R21 states for it. The
owner written in a band record is replaced by the staging port, and a colour keeps the low six bits of each byte. -/
def Obligations.EditFieldsAreChecked : Prop :=
  ∀ (p : Port) (pl : List Byte),
    let colour (i : Nat) : Colour :=
      ⟨(pl.getD i 0#8).setWidth 6, (pl.getD (i + 1) 0#8).setWidth 6, (pl.getD (i + 2) 0#8).setWidth 6⟩
    (∀ code bytes, (code, bytes) ∈ [(1, 17), (2, 1), (3, 5), (4, 3), (8, 9), (9, 5), (10, 3), (11, 3), (12, 2)] →
      num8 pl 0 = code → pl.length ≠ 1 + bytes → parseEdit p pl = none) ∧
    (num8 pl 0 = 1 → pl.length = 18 →
      let ok := num8 pl 1 ≤ 7 ∧ num16 pl 3 ≤ 767 ∧ 1 ≤ num16 pl 5 ∧ num16 pl 5 ≤ 768 ∧
        ((num8 pl 7 = 1 ∧ num8 pl 8 ≤ 31 ∧ num16 pl 10 ≤ 2047 ∧ num16 pl 12 ≤ 1023) ∨ num8 pl 7 = 2)
      (¬ok → parseEdit p pl = none) ∧
      (ok →
        ∃ b, parseEdit p pl = some (.bandPut b) ∧ b.key.owner = p ∧ b.key.number.val = num8 pl 1 ∧
          b.first = num16 pl 3 ∧ b.count = num16 pl 5 ∧ b.staleLimit = num8 pl 17 ∧
          (num8 pl 7 = 1 →
            ∃ h, b.part = .surface h (num16 pl 10) (num16 pl 12) ∧ h.index.val = num8 pl 8 ∧ h.gen = pl.getD 9 0#8) ∧
          (num8 pl 7 = 2 → b.part = .fill (colour 14)))) ∧
    (num8 pl 0 = 2 → pl.length = 2 →
      (7 < num8 pl 1 → parseEdit p pl = none) ∧
      (∀ n : Fin 8, n.val = num8 pl 1 → parseEdit p pl = some (.bandDrop n))) ∧
    (num8 pl 0 = 3 → pl.length = 6 →
      ((7 < num8 pl 1 ∨ 2047 < num16 pl 2 ∨ 1023 < num16 pl 4) → parseEdit p pl = none) ∧
      (∀ n : Fin 8, n.val = num8 pl 1 → num16 pl 2 ≤ 2047 → num16 pl 4 ≤ 1023 →
        parseEdit p pl = some (.bandView n (num16 pl 2) (num16 pl 4)))) ∧
    (num8 pl 0 = 4 → pl.length = 4 →
      ((7 < num8 pl 1 ∨ 31 < num8 pl 2) → parseEdit p pl = none) ∧
      (∀ (n : Fin 8) (h : Handle), n.val = num8 pl 1 → h.index.val = num8 pl 2 → h.gen = pl.getD 3 0#8 →
        parseEdit p pl = some (.bandSurface n h))) ∧
    (num8 pl 0 = 8 → pl.length = 10 →
      parseEdit p pl =
        some
          (.setTiming
            { hdw := num16 pl 1, hnd := num16 pl 3, vdl := num16 pl 5, vnd := num16 pl 7, divider := num8 pl 9 })) ∧
    (num8 pl 0 = 9 → pl.length = 6 →
      ((3 < num8 pl 1 ∨ 767 < num16 pl 2 ∨ 767 < num16 pl 4 ∨ num16 pl 4 < num16 pl 2) → parseEdit p pl = none) ∧
      (∀ q : Port, q.toNat = num8 pl 1 → num16 pl 2 ≤ num16 pl 4 → num16 pl 4 ≤ 767 →
        parseEdit p pl = some (.setRegion q { top := num16 pl 2, bottom := num16 pl 4 }))) ∧
    (num8 pl 0 = 10 → pl.length = 4 → parseEdit p pl = some (.setBackground (colour 1))) ∧
    (num8 pl 0 = 11 → pl.length = 4 → parseEdit p pl = some (.setStaleColour (colour 1))) ∧
    (num8 pl 0 = 12 → pl.length = 3 →
      ((3 < num8 pl 1 ∨ 7 < num8 pl 2) → parseEdit p pl = none) ∧
      (∀ (q : Port) (n : Fin 8), q.toNat = num8 pl 1 → n.val = num8 pl 2 →
        parseEdit p pl = some (.evictBand ⟨q, n⟩)))

/-- SUBMIT: the checks of R23 in order; then the staging area moves whole into a TRANSACTION entry at the tail of the queue,
with the awaited set of the port's jobs when the flag asks for it. This is the effect while timing runs, and of an entry that
is held. -/
def Obligations.SubmitEntersTheQueue : Prop :=
  ∀ (s : State) (p : Port) (tag flag : Byte), Admitted s p .submit [tag, flag] →
    let edits := s.layout.staging.get p
    let answered (st : Status) : Prop := exec (.submit p) s = .next (Replied s p st [])
    let jobs := (s.engine.jobs.filter fun j => decide (j.owner = p)).map Job.arrival
    let entered := ∃ e ∈ s.layout.queue, e.port = p
    let unread := ∃ n ∈ (s.notices.get p).queue, n.isOutcome = true
    let nothing := edits = [] ∧ (s.pal.records.get p).unpublished = false
    (entered → answered .pending) ∧
    (¬entered → unread → answered .noticeUnread) ∧
    (¬entered → ¬unread → nothing → answered .empty) ∧
    (¬entered → ¬unread → ¬nothing → 1 < flag.toNat → answered .range) ∧
    (¬entered → ¬unread → ¬nothing → flag.toNat ≤ 1 →
      (s.timing.run = .running ∨ (flag = 1#8 ∧ jobs ≠ [] ∧ ∀ e ∈ s.layout.queue, e.held = true)) →
      exec (.submit p) s =
        .next
          (Replied
            { s with
              layout :=
                { s.layout with
                  staging := s.layout.staging.set p []
                  record := s.layout.record.set p .queued
                  queue :=
                    s.layout.queue ++
                      [.transaction
                        { port := p, tag := tag, waitJobs := decide (flag = 1#8), edits := edits,
                          awaited := if flag = 1#8 then jobs else [] }] } }
            p .ok []))

/-- A SUBMIT while timing is stopped, of an entry that is not held, is applied within its own event, before its reply is filled: the reply's
attention-pending flag reports the outcome notice. -/
def Obligations.SubmitWhileStoppedIsApplied : Prop :=
  ∀ (s : State) (p : Port) (tag flag : Byte), Lawful s → s.timing.run = .stopped → Admitted s p .submit [tag, flag] →
    (∀ e ∈ s.layout.queue, e.port ≠ p) → (∀ n ∈ (s.notices.get p).queue, n.isOutcome = false) →
    (s.layout.staging.get p ≠ [] ∨ (s.pal.records.get p).unpublished = true) → flag.toNat ≤ 1 →
    (flag = 1#8 → ∀ j ∈ s.engine.jobs, j.owner ≠ p) →
    ∃ t, exec (.submit p) s = .next t ∧
      AppliedAs s p tag (s.layout.staging.get p) s.timing.frameNumber t ∧
      t.layout.queue = s.layout.queue ∧ t.layout.staging = s.layout.staging.set p [] ∧
      t.links = (Replied { s with notices := t.notices } p .ok []).links ∧
      (t.links.get p).slot.map Reply.attention = some true ∧
      t.timing = { s.timing with pending := t.timing.pending } ∧
      t.sessions = s.sessions ∧ t.alloc = s.alloc ∧ t.store = s.store ∧ t.arb = s.arb ∧ t.engine = s.engine ∧
      t.scan = s.scan ∧ t.power = s.power ∧ (∀ q, (t.notices.get q).frameSub = (s.notices.get q).frameSub)

/-- The edits of a transaction on its tentative copy, by the tables of R32 and R33, with the eviction set and the changed set; a BAND_PUT
keeps the order of R34. -/
def Obligations.EditsActOnTheCopy : Prop :=
  ∀ (p : Port) (t : Tentative),
    let bands := t.copy.bands
    let sorted (bs : List Band) : Prop := bs.Pairwise fun a b => a.before b = true
    let without (k : BandKey) : List Band := bands.filter fun b => decide (b.key ≠ k)
    let moved (k : BandKey) (part : BandPart) : List Band :=
      bands.map fun b => if b.key = k then { b with part := part } else b
    (∀ b, ∃ t', applyEdit p t (.bandPut b) = .ok t' ∧
      (∀ x, x ∈ t'.copy.bands ↔ x = b ∨ (x ∈ bands ∧ x.key ≠ b.key)) ∧ (sorted bands → sorted t'.copy.bands) ∧
      t'.evicted = t.evicted ∧ (∀ k, k ∈ t'.changed ↔ k = b.key ∨ k ∈ t.changed) ∧
      t'.copy = { t.copy with bands := t'.copy.bands }) ∧
    (∀ n, (∀ b ∈ bands, b.key ≠ ⟨p, n⟩) →
      applyEdit p t (.bandDrop n) = .error ⟨p, n⟩ ∧ (∀ x y, applyEdit p t (.bandView n x y) = .error ⟨p, n⟩) ∧
        ∀ h, applyEdit p t (.bandSurface n h) = .error ⟨p, n⟩) ∧
    (∀ n, (∃ b ∈ bands, b.key = ⟨p, n⟩) →
      applyEdit p t (.bandDrop n) =
        .ok
          { copy := { t.copy with bands := without ⟨p, n⟩ }, evicted := t.evicted,
            changed := t.changed.filter fun k => decide (k ≠ ⟨p, n⟩) }) ∧
    (∀ n b, (bands.map Band.key).Nodup → b ∈ bands → b.key = ⟨p, n⟩ →
      (∀ c, b.part = .fill c →
        (∀ x y, applyEdit p t (.bandView n x y) = .error ⟨p, n⟩) ∧
          ∀ h, applyEdit p t (.bandSurface n h) = .error ⟨p, n⟩) ∧
      (∀ h vx vy, b.part = .surface h vx vy →
        (∀ x y, ∃ t', applyEdit p t (.bandView n x y) = .ok t' ∧
          t'.copy = { t.copy with bands := moved ⟨p, n⟩ (.surface h x y) } ∧ t'.evicted = t.evicted ∧
          ∀ k, k ∈ t'.changed ↔ k = ⟨p, n⟩ ∨ k ∈ t.changed) ∧
        (∀ g, ∃ t', applyEdit p t (.bandSurface n g) = .ok t' ∧
          t'.copy = { t.copy with bands := moved ⟨p, n⟩ (.surface g vx vy) } ∧ t'.evicted = t.evicted ∧
          ∀ k, k ∈ t'.changed ↔ k = ⟨p, n⟩ ∨ k ∈ t.changed))) ∧
    (∀ tm, applyEdit p t (.setTiming tm) = .ok { t with copy := { t.copy with timing := tm } }) ∧
    (∀ c, applyEdit p t (.setBackground c) = .ok { t with copy := { t.copy with background := c } }) ∧
    (∀ c, applyEdit p t (.setStaleColour c) = .ok { t with copy := { t.copy with staleColour := c } }) ∧
    (∀ q r, (bands.map Band.key).Nodup →
      let out (b : Band) : Prop := b.key.owner = q ∧ ¬(r.top ≤ b.first ∧ b.first + b.count ≤ r.bottom + 1)
      ∃ t', applyEdit p t (.setRegion q r) = .ok t' ∧
        t'.copy = { t.copy with bands := t'.copy.bands, regions := t.copy.regions.set q r } ∧
        t'.copy.bands.Sublist bands ∧ (∀ b ∈ bands, b ∈ t'.copy.bands ↔ ¬out b) ∧
        (∀ k, k ∈ t'.evicted ↔ k ∈ t.evicted ∨ ∃ b ∈ bands, out b ∧ b.key = k) ∧
        ∀ k, k ∈ t'.changed ↔ k ∈ t.changed ∧ ¬∃ b ∈ bands, out b ∧ b.key = k) ∧
    (∀ k, (∀ b ∈ bands, b.key ≠ k) → applyEdit p t (.evictBand k) = .ok t) ∧
    (∀ k, (∃ b ∈ bands, b.key = k) →
      ∃ t', applyEdit p t (.evictBand k) = .ok t' ∧ t'.copy = { t.copy with bands := without k } ∧
        (∀ j, j ∈ t'.evicted ↔ j = k ∨ j ∈ t.evicted) ∧ ∀ j, j ∈ t'.changed ↔ j ∈ t.changed ∧ j ≠ k)

/-- Validation passes exactly when no band fails a check, the band counts are within their limits and the timing parameters in their ranges;
otherwise the first failure decides: the first band in list order that fails a check, by the first check it fails, then BAND_LIMIT, then
RANGE. -/
def Obligations.ValidationTakesTheFirstFailure : Prop :=
  ∀ (s : State) (l : Layout), (∀ b ∈ l.bands, 1 ≤ b.count) →
    let passes := ∀ ahead b later, l.bands = ahead ++ b :: later → ∀ r, ¬FailsCheck s l b later r
    let few := l.bands.length ≤ 16 ∧ ∀ p, (l.bands.filter fun b => decide (b.key.owner = p)).length ≤ 8
    (validate s l = none ↔ passes ∧ few ∧ InRange l.timing) ∧
    (validate s l = some (.bandLimit, none) ↔ passes ∧ ¬few) ∧
    (validate s l = some (.range, none) ↔ passes ∧ few ∧ ¬InRange l.timing) ∧
    (∀ r k, r ≠ .bandLimit → r ≠ .range →
      (validate s l = some (r, k) ↔
        ∃ ahead b later, l.bands = ahead ++ b :: later ∧ k = some b.key ∧ FailsCheck s l b later r ∧
          (∀ r', r'.code < r.code → ¬FailsCheck s l b later r') ∧
          ∀ ahead' a later', l.bands = ahead' ++ a :: later' → ahead'.length < ahead.length →
            ∀ r', ¬FailsCheck s l a later' r'))

/-- RECALL takes the port's entry back into its staging area, or is answered by the submission record (R25); ABANDON empties
the staging area unless the port has an entry in the submit queue (R22). Neither touches the palette draft. TOO_LATE, NONE
and PENDING carry no payload (log 28). -/
def Obligations.RecallAndAbandon : Prop :=
  ∀ (s : State) (p : Port),
    (Admitted s p .recall [] →
      (∀ x ahead behind, s.layout.record.get p = .queued → s.layout.queue = ahead ++ .transaction x :: behind →
        x.port = p → (∀ e ∈ ahead ++ behind, e.port ≠ p) →
        exec (.recall p) s =
          .next
            (Replied
              { s with
                layout :=
                  { s.layout with
                    staging := s.layout.staging.set p x.edits
                    record := s.layout.record.set p .recalled
                    queue := ahead ++ behind } }
              p .ok [BitVec.ofNat 8 x.edits.length])) ∧
      (s.layout.record.get p = .applied → exec (.recall p) s = .next (Replied s p .tooLate [])) ∧
      ((s.layout.record.get p = .noSubmit ∨ s.layout.record.get p = .recalled) →
        exec (.recall p) s = .next (Replied s p .none []))) ∧
    (Admitted s p .abandon [] →
      (Submitted s p → exec (.abandon p) s = .next (Replied s p .pending [])) ∧
      (¬Submitted s p →
        exec (.abandon p) s =
          .next
            (Replied { s with layout := { s.layout with staging := s.layout.staging.set p [] } } p .ok
              [BitVec.ofNat 8 (s.layout.staging.get p).length])))

/-! ### Freshness -/

/-- TOUCH refreshes the port's named bands of the active layout and counts them, the marks it cleared and the numbers that name no band;
nothing else changes, and the published stale set stands. -/
def Obligations.TouchRefreshes : Prop :=
  ∀ (s : State) (p : Port) (set : Byte), Admitted s p .touch [set] →
    let bands := s.layout.active.bands
    let named (n : Fin 8) : Bool := set.getLsbD n.val
    let known (n : Fin 8) : Bool := bands.any fun b => decide (b.key = ⟨p, n⟩)
    let touched (r : FreshRecord) : Bool := decide (r.key.owner = p) && named r.key.number && known r.key.number
    (set = 0#8 → exec (.touch p) s = .next (Replied s p .range [])) ∧
    (set ≠ 0#8 →
      exec (.touch p) s =
        .next
          (Replied
            { s with
              fresh :=
                { s.fresh with
                  records := s.fresh.records.map fun r => if touched r then { r with age := 0, mark := false } else r } }
            p .ok
            [BitVec.ofNat 8 ((List.finRange 8).filter fun n => named n && known n).length,
             BitVec.ofNat 8 (s.fresh.records.filter fun r => touched r && r.mark).length,
             BitVec.ofNat 8 ((List.finRange 8).filter fun n => named n && !known n).length]))

/-! ### The copy engine -/

/-- JOB_FILL and JOB_COPY: the checks of R90 in order, and the job admitted, with the direction of R96. -/
def Obligations.JobsAreAdmitted : Prop :=
  (∀ s p, NoSuchIndex (.jobFill p) s p .jobFill 1 [] ∧ NoSuchIndex (.jobCopy p) s p .jobCopy 1 [] ∧
    NoSuchIndex (.jobCopy p) s p .jobCopy 7 []) ∧
  ∀ (s : State) (p : Port) (tag : Byte) (d f : Handle) (dx dy sx sy w h value : Nat),
    dx < 65536 → dy < 65536 → sx < 65536 → sy < 65536 → w < 65536 → h < 65536 → value < 65536 →
    let own (x : Handle) : Prop := NamesLive s x ∧ (s.alloc.table.get x.index).owner = p
    let inside (x : Handle) (x0 y0 : Nat) : Prop :=
      1 ≤ w ∧ 1 ≤ h ∧ x0 + w ≤ (s.alloc.table.get x.index).width ∧ y0 + h ≤ (s.alloc.table.get x.index).height
    let depth (x : Handle) : Depth := (s.alloc.table.get x.index).depth
    let job (kind : JobKind) (dir : Direction) : Job :=
      { owner := p, tag := tag, kind := kind, dest := d, dx := dx, dy := dy, w := w, h := h, direction := dir,
        arrival := s.engine.arrival, state := .queued, rowsDone := 0, notify := true }
    (Admitted s p .jobFill ([tag] ++ putHandle d ++ put16 dx ++ put16 dy ++ put16 w ++ put16 h ++ put16 value) →
      (¬own d → exec (.jobFill p) s = .next (Replied s p .noSurface [])) ∧
      (own d → ¬(inside d dx dy ∧ value < 2 ^ (depth d).bits) →
        exec (.jobFill p) s = .next (Replied s p .range [])) ∧
      (own d → inside d dx dy → value < 2 ^ (depth d).bits → JobOffered (.jobFill p) s p (job (.fill value) .down))) ∧
    (Admitted s p .jobCopy
        ([tag] ++ putHandle f ++ put16 sx ++ put16 sy ++ putHandle d ++ put16 dx ++ put16 dy ++ put16 w ++ put16 h) →
      (¬(own d ∧ own f) → exec (.jobCopy p) s = .next (Replied s p .noSurface [])) ∧
      (own d → own f → depth f ≠ depth d → exec (.jobCopy p) s = .next (Replied s p .badGeometry [])) ∧
      (own d → own f → depth f = depth d → ¬(inside d dx dy ∧ inside f sx sy) →
        exec (.jobCopy p) s = .next (Replied s p .range [])) ∧
      (own d → own f → depth f = depth d → inside d dx dy → inside f sx sy →
        JobOffered (.jobCopy p) s p (job (.copy f sx sy) (if f = d ∧ sy < dy then .up else .down))))

/-- JOB_CANCEL acts by the state of the port's job of that tag: a queued job leaves and its owner and the layout controller are told (log
29), which while timing is stopped applies an entry that is no longer held; a running job's abort begins, with the flags of the surfaces
it names; an aborting job stays so. -/
def Obligations.JobCancelActs : Prop :=
  ∀ (s : State) (p : Port) (tag : Byte), Admitted s p .jobCancel [tag] →
    ((∀ j ∈ s.engine.jobs, j.owner = p → j.tag ≠ tag) → exec (.jobCancel p) s = .next (Replied s p .noJob [])) ∧
    (∀ ahead j behind, s.engine.jobs = ahead ++ j :: behind → j.owner = p → j.tag = tag →
      (∀ k ∈ ahead ++ behind, ¬(k.owner = p ∧ k.tag = tag)) →
      (j.state = .queued → Lawful s →
        ∃ t, exec (.jobCancel p) s = .next (Replied t p .ok [0#8]) ∧
          JobReported
            { s with
              engine := { s.engine with jobs := ahead ++ behind }
              notices := s.notices.set p ((s.notices.get p).take (.jobCancelled tag)) }
            j t) ∧
      (j.state = .running →
        ∃ t, exec (.jobCancel p) s = .next t ∧
          t = Replied
            { s with engine := { s.engine with jobs := ahead ++ { j with state := .aborting } :: behind }, alloc := t.alloc }
            p .ok ([1#8] ++ put16 j.rowsDone) ∧
          t.alloc = { s.alloc with table := t.alloc.table } ∧
          ∀ i : Fin 32,
            (NamedBy s j i → t.alloc.table.get i = { s.alloc.table.get i with pendingAbort := true }) ∧
            (¬NamedBy s j i → t.alloc.table.get i = s.alloc.table.get i)) ∧
      (j.state = .aborting → exec (.jobCancel p) s = .next (Replied s p .ok ([1#8] ++ put16 j.rowsDone))))

/-! ### Power -/

/-- VOTE replaces the session's vote and acts on the change of demand it brings: a panel that is dark starts, with its FRAME_START; one
whose lead has begun is stopped; the reply tells the vote, demand and the state after, and every OPEN session is told of a change of power
state, at a start beside the STALE notices of its FRAME_START, in an order left open (log 7). -/
def Obligations.VoteActsOnDemand : Prop :=
  ∀ (s : State) (p : Port) (v : Byte), Admitted s p .vote [v] →
    let votes := s.power.votes.set p (some (if v = 1#8 then .on else .off))
    let before := demand s
    let after := demand { s with power := { s.power with votes := votes } }
    let starts := s.power.state = .dark ∧ s.timing.run = .stopped ∧ before = false ∧ after = true
    let stops := s.power.state = .logicLead ∧ s.power.stopRequested = false ∧ before = true ∧ after = false
    (1 < v.toNat → exec (.vote p) s = .next (Replied s p .range [])) ∧
    (v.toNat ≤ 1 →
      ∃ t, exec (.vote p) s = .next t ∧ t.power = powerAfterVote s votes before after ∧
        t.links =
          (Replied { s with notices := t.notices } p .ok [v, if after then 1#8 else 0#8, t.power.state.code]).links ∧
        t.sessions = s.sessions ∧ t.layout = s.layout ∧ t.alloc = s.alloc ∧ t.store = s.store ∧ t.pal = s.pal ∧
        t.engine = s.engine ∧
        (starts →
          t.timing =
            { run := .running, period := .display, line := 0, part := .sync, stopPending := s.timing.stopPending,
              active := s.timing.pending.getD s.timing.active, pending := none,
              frameNumber := s.timing.frameNumber } ∧
          AgedAs s t ∧ SourcedAs s t.fresh.staleSet 0 t ∧ ToldMerged s t [powerToEach .logicLead, staleTold s]) ∧
        (stops → s.timing.run = .running → t.timing = { s.timing with stopPending := true }) ∧
        (¬starts → ¬stops → t.timing = s.timing) ∧
        (¬starts →
          t.fresh = s.fresh ∧ t.scan = s.scan ∧ t.arb = s.arb ∧
            (t.power.state ≠ s.power.state → PowerTold s t t.power.state) ∧
            (t.power.state = s.power.state → t.notices = s.notices)))

/-- SUP_INHIBIT makes the inhibit as carried; cleared in LOGIC_HELD while demand is present it begins a new lead count, and
otherwise nothing else changes. SUP_POWER_TIMES replaces both counts and leaves a count in progress as it is. -/
def Obligations.InhibitAndPowerTimes : Prop :=
  ∀ (s : State) (p : Port),
    (∀ v : Byte, Admitted s p .supInhibit [v] →
      let again := s.power.inhibit = true ∧ v = 0#8 ∧ s.power.state = .logicHeld ∧ demand s = true
      (1 < v.toNat → exec (.supInhibit p) s = .next (Replied s p .range [])) ∧
      (v.toNat ≤ 1 → ¬again →
        exec (.supInhibit p) s =
          .next
            (Replied { s with power := { s.power with inhibit := decide (v = 1#8) } } p .ok [v, s.power.state.code])) ∧
      (again →
        ∃ t, exec (.supInhibit p) s = .next t ∧
          t = Replied
            { s with
              power :=
                { s.power with inhibit := false, state := .logicLead, frameCount := 0, target := s.power.lead }
              notices := t.notices, draws := t.draws }
            p .ok [0#8, 1#8] ∧
          PowerTold s t .logicLead)) ∧
    (∀ l t : Byte, Admitted s p .supPowerTimes [l, t] →
      (t = 0#8 → exec (.supPowerTimes p) s = .next (Replied s p .range [])) ∧
      (t ≠ 0#8 →
        exec (.supPowerTimes p) s =
          .next (Replied { s with power := { s.power with lead := l.toNat, tail := t.toNat } } p .ok [l, t])))

/-! ### The frame store -/

/-- FRAME_STORE_GRANT, by R68: nothing is granted while an access is in service or none waits (the model's choice for a
command whose event cannot happen, log 2); otherwise a line fetch first, the turn unchanged; then the engine's row or the
oldest port access by the turn, which passes to the other side. A write stores its bytes and a read and a line fetch take the
bytes as they stand at the grant (log 15); the bytes of a row are those of GrantedRowWritesItsPixels. -/
def Obligations.ArbiterGrants : Prop :=
  ∀ (s : State),
    (s.arb.busy ≠ none → exec .frameStoreGrant s = .next s) ∧
    (s.arb.busy = none →
      (∀ f, s.arb.lineFetch = some f → f.addr + f.len ≤ 524288 →
        ∃ bytes : List Byte,
          exec .frameStoreGrant s =
            .next { s with arb := { s.arb with lineFetch := none, busy := some (.lineFetch f bytes) } } ∧
          bytes.length = f.len ∧ ∀ i, i < f.len → bytes.getD i 0#8 = s.byteAt (f.addr + i)) ∧
      (s.arb.lineFetch = none →
        (s.arb.engineRow = false → s.arb.ports = [] → exec .frameStoreGrant s = .next s) ∧
        (∀ a rest, s.arb.ports = a :: rest → (s.arb.engineRow = false ∨ s.arb.turn = .ports) →
          let granted (store : Memory) (payload : List Byte) : State :=
            { s with
              store := store
              arb :=
                { s.arb with
                  turn := .engine, ports := rest, busy := some (.portAccess a.port a.status payload true) } }
          (∀ data, a.op = .write data → a.addr + data.length ≤ 524288 →
            ∃ store, exec .frameStoreGrant s = .next (granted store (put16 data.length)) ∧
              ∀ x,
                (granted store (put16 data.length)).byteAt x =
                  if a.addr ≤ x ∧ x < a.addr + data.length then data.getD (x - a.addr) 0#8 else s.byteAt x) ∧
          (∀ n, a.op = .read n → a.addr + n ≤ 524288 →
            ∃ bytes : List Byte, exec .frameStoreGrant s = .next (granted s.store bytes) ∧ bytes.length = n ∧
              ∀ i, i < n → bytes.getD i 0#8 = s.byteAt (a.addr + i))) ∧
        (s.arb.engineRow = true → s.engine.jobs ≠ [] → (s.arb.ports = [] ∨ s.arb.turn = .engine) → Lawful s →
          ∃ store,
            exec .frameStoreGrant s =
              .next
                { s with
                  store := store
                  arb := { s.arb with turn := .ports, engineRow := false, busy := some (.engineRow false) } })))

/-- A granted row writes its w pixels and nothing else: inside the rectangle the fill's value, or the source's pixels as they
stood before the grant; every other pixel of the line, and every byte outside the row's span, keeps its value. -/
def Obligations.GrantedRowWritesItsPixels : Prop :=
  ∀ (s : State) (j : Job) (rest : List Job), Lawful s → s.arb.busy = none → s.arb.lineFetch = none →
    s.arb.engineRow = true → s.engine.jobs = j :: rest → (s.arb.ports = [] ∨ s.arb.turn = .engine) →
    let e := s.alloc.table.get j.dest.index
    let row (y : Nat) : Nat := if j.direction = .down then y + j.rowsDone else y + j.h - 1 - j.rowsDone
    let y := row j.dy
    let first := e.firstBlock * 2048 + y * e.stride + pixelByte e.depth j.dx
    ∃ t, exec .frameStoreGrant s = .next t ∧
      (∀ x, x < e.width →
        (x < j.dx ∨ j.dx + j.w ≤ x → pixelValue e.depth (lineOf t e y) x = pixelValue e.depth (lineOf s e y) x) ∧
        (j.dx ≤ x → x < j.dx + j.w →
          (∀ v, j.kind = .fill v → pixelValue e.depth (lineOf t e y) x = v) ∧
          (∀ src sx sy, j.kind = .copy src sx sy →
            pixelValue e.depth (lineOf t e y) x =
              pixelValue e.depth (lineOf s (s.alloc.table.get src.index) (row sy)) (sx + (x - j.dx))))) ∧
      (∀ a, (a < first ∨ first + rowSpan e.depth j.dx j.w ≤ a) → t.byteAt a = s.byteAt a)

/-- The completion of a port's access fills its reply, unless a port reset took the request away; the completion of a line fetch fixes the
line's colours, column by column, through the owner's palette entries or by the direct-colour conversion. -/
def Obligations.AccessesComplete : Prop :=
  ∀ (s : State),
    (∀ p st payload, s.arb.busy = some (.portAccess p st payload true) →
      exec .portAccessCompletion s = .next (Replied { s with arb := { s.arb with busy := none } } p st payload)) ∧
    (∀ p st payload, s.arb.busy = some (.portAccess p st payload false) →
      exec .portAccessCompletion s = .next { s with arb := { s.arb with busy := none } }) ∧
    (∀ f bytes n, s.arb.busy = some (.lineFetch f bytes) → bytes.length = pixelSpan f.depth n → 8 ∣ n →
      ∃ colours : List Colour,
        exec .lineFetchCompletion s = .next { s with arb := { s.arb with busy := none }, scan := .fixed colours } ∧
        colours.length = n ∧
        ∀ c, c < n →
          let v := pixelValue f.depth (fun i => bytes.getD i 0#8) c
          colours.getD c Colour.black =
            if f.depth = .d16 then
              ⟨BitVec.ofNat 6 (2 * (v / 2048) + v / 2048 / 16), BitVec.ofNat 6 (v / 32 % 64),
                BitVec.ofNat 6 (2 * (v % 32) + v % 32 / 16)⟩
            else f.palette.getD v Colour.black)

/-- A row completion adds one row; one of a row whose job DEVICE_RESET removed frees the store and has no further effect
(R106). While the job has rows left its next row is posted; the last row ends it as done; the first row after an abort ends
it as aborted, clears the flags of the surfaces it names and frees those that were RETIRING and wait for nothing else. The
end of a job is reported to the layout controller (log 29), which while timing is stopped applies an entry that is no longer
held. That a freed entry keeps its unused fields is the model's choice (log 10). -/
def Obligations.RowCompletionCounts : Prop :=
  (∀ s : State, s.arb.busy = some (.engineRow true) →
    exec .rowCompletion s = .next { s with arb := { s.arb with busy := none } }) ∧
  ∀ (s : State) (j : Job) (rest : List Job), Lawful s → s.engine.jobs = j :: rest →
    s.arb.busy = some (.engineRow false) →
    let freed (jobs : List Job) : State :=
      { s with
        engine := { s.engine with jobs := jobs }
        arb := { s.arb with busy := none, engineRow := decide (jobs ≠ []) } }
    (j.state = .running → j.rowsDone + 1 < j.h →
      exec .rowCompletion s = .next (freed ({ j with rowsDone := j.rowsDone + 1 } :: rest))) ∧
    (j.state = .running → j.rowsDone + 1 = j.h →
      ∃ t, exec .rowCompletion s = .next t ∧
        JobReported
          { freed (promoted rest) with
            notices := s.notices.set j.owner ((s.notices.get j.owner).take (.jobDone j.tag)) }
          j t) ∧
    (j.state = .aborting →
      ∃ t, exec .rowCompletion s = .next t ∧
        JobReported
          { freed (promoted rest) with
            notices :=
              if j.notify then s.notices.set j.owner ((s.notices.get j.owner).take (.jobAborted j.tag)) else s.notices
            alloc := t.alloc
            sessions := t.sessions }
          j t ∧
        (∀ i : Fin 32,
          let e := s.alloc.table.get i
          (¬NamedBy s j i → t.alloc.table.get i = e) ∧
          (NamedBy s j i → e.state = .retiring → s.alloc.withdrawalOut.get e.owner = false →
            t.alloc.table.get i = { e with state := .free, pendingAbort := false }) ∧
          (NamedBy s j i → ¬(e.state = .retiring ∧ s.alloc.withdrawalOut.get e.owner = false) →
            t.alloc.table.get i = { e with pendingAbort := false })) ∧
        (∀ q, q ≠ j.owner → t.sessions.get q = s.sessions.get q) ∧
        ((s.sessions.get j.owner).state = .closing → (s.sessions.get j.owner).withdrawalPending = false →
          (∀ i : Fin 32, (s.alloc.table.get i).state = .retiring → (s.alloc.table.get i).owner = j.owner → NamedBy s j i) →
          (t.sessions.get j.owner).state = .idle ∧ (t.sessions.get j.owner).label = none))

/-! ### Timing and scan-out -/

/-- LINE_START, BACK_PORCH_START and DISPLAY_PART_START: the parts of a line in turn, and at each display line's start the
source of the line by the cases of R14. -/
def Obligations.LinesAreProducedInOrder : Prop :=
  ∀ (s : State), s.timing.run = .running →
    (s.timing.part = .display → s.timing.line + 1 < s.timing.active.vdl →
      ∃ t, exec .lineStart s = .next t ∧
        t = { s with
              timing := { s.timing with line := s.timing.line + 1, part := .sync }, scan := t.scan, arb := t.arb } ∧
        SourcedAs s s.fresh.staleSet (s.timing.line + 1) t) ∧
    (s.timing.part = .display → s.timing.active.vdl < s.timing.line + 1 →
      s.timing.line + 1 < s.timing.active.vdl + s.timing.active.vnd →
      exec .lineStart s =
        .next { s with timing := { s.timing with line := s.timing.line + 1, part := .sync }, scan := .none }) ∧
    (s.timing.part = .sync →
      exec .backPorchStart s = .next { s with timing := { s.timing with part := .backPorch } }) ∧
    (s.timing.part = .backPorch → s.scan ≠ .awaiting →
      exec .displayPartStart s = .next { s with timing := { s.timing with part := .display } })

/-- The outputs, by the table of R119 for the panel, R138 for the supplies, R183 for the attention lines, and R147, R156 and
R165 for SDO, which is driven while CSn is low and RSTn high (CSn is as the fetch rows left it, for a request window arrives
whole, log 18); and under the laws, the panel is supplied only while timing runs, and the display part of a display line
always has its HDW colours. -/
def Obligations.OutputsFollowTheTables : Prop :=
  ∀ (s : State),
    (s.timing.run = .stopped → panelOutputs s = ⟨false, false, false, false, []⟩) ∧
    (s.timing.run = .running →
      (panelOutputs s).pclk = true ∧ (panelOutputs s).hsync = decide (s.timing.part = .sync) ∧
      (panelOutputs s).vsync = decide (s.timing.period = .nonDisplay) ∧
      (panelOutputs s).den = decide (s.timing.part = .display ∧ s.timing.period = .display) ∧
      (¬(s.timing.part = .display ∧ s.timing.period = .display) → (panelOutputs s).colours = []) ∧
      (∀ cs, s.timing.part = .display → s.timing.period = .display → s.scan = .fixed cs →
        (panelOutputs s).colours = cs)) ∧
    logicEn s = decide (s.power.state ≠ .dark) ∧ powerEn s = decide (s.power.state = .lit) ∧
    (∀ p, attnHigh s p = decide ((s.notices.get p).queue = [])) ∧
    (∀ p, sdoDriven s p = decide ((s.links.get p).rstLow = false ∧ (s.links.get p).csLow = true)) ∧
    (∀ pins : PortPins, sdoPin true pins = false) ∧
    (Lawful s →
      logicEn s = decide (s.timing.run = .running) ∧
      (powerEn s = true → logicEn s = true ∧ s.timing.stopPending = false) ∧
      (s.timing.run = .running → s.timing.part = .display → s.timing.period = .display →
        (panelOutputs s).colours.length = s.timing.active.hdw))

/-- FRAME_START at the end of a frame with no stop pending: the pending parameters take effect, line 0 begins, the bands age
and are marked, the notices go out in band-list order, the new stale set is published, and line 0 is sourced with it.
BAND_MARKED_STALE is that same event, at which the band named is marked. -/
def Obligations.FrameStartAgesTheBands : Prop :=
  ∀ (s : State), s.timing.run = .running → s.timing.part = .display →
    s.timing.line + 1 = s.timing.active.vdl + s.timing.active.vnd → s.timing.stopPending = false →
    (∃ t, exec .frameStart s = .next t ∧
      t = { s with
            timing :=
              { s.timing with
                active := s.timing.pending.getD s.timing.active, pending := none, period := .display, line := 0,
                part := .sync }
            fresh := t.fresh, scan := t.scan, arb := t.arb, notices := (deliver (staleTold s) s).notices } ∧
      AgedAs s t ∧ SourcedAs s t.fresh.staleSet 0 t) ∧
    (∀ k r, r ∈ s.fresh.records → r.key = k → r.mark = false → 1 ≤ limitOf s.layout.active.bands k →
      r.age + 1 = limitOf s.layout.active.bands k →
      exec (.bandMarkedStale k) s = exec .frameStart s ∧
        ∃ t, exec (.bandMarkedStale k) s = .next t ∧ k ∈ t.fresh.staleSet)

/-- VBLANK_START: the frame number rises, line VDL begins, the submit queue is taken in one pass, entry after entry, and
every subscribed session is told the frame number. The pass is `applyEntries` of the queue: over several entries it is the
passes over its parts, one after the other, and over one entry it skips a held one, applies a transaction or applies a
withdrawal; its notices, those of the sequencer and the FRAME notices merge in an order left open (log 7). That an entry
freed by a withdrawal keeps its unused fields is the model's choice (log 10). -/
def Obligations.VblankAppliesTheQueue : Prop :=
  (∀ (s : State), Lawful s → s.timing.run = .running → s.timing.part = .display →
    s.timing.line + 1 = s.timing.active.vdl →
    let start : State :=
      { s with
        timing :=
          { s.timing with
            frameNumber := s.timing.frameNumber + 1#16, period := .nonDisplay, line := s.timing.line + 1, part := .sync }
        scan := .none
        layout := { s.layout with queue := s.layout.queue.filter QueueEntry.held } }
    let pass := applyEntries s.layout.queue start
    ∃ t, exec .vblankStart s = .next t ∧ PassLeft pass.1 t ∧
      ToldMerged s t
        [pass.2, if t.power.state = s.power.state then [] else powerToEach t.power.state,
         (Port.all.filter fun p => decide ((s.sessions.get p).state = .opened) && (s.notices.get p).frameSub).map fun p =>
           (p, .frame (s.timing.frameNumber + 1#16))] ∧
      t.timing =
        { s.timing with
          frameNumber := s.timing.frameNumber + 1#16, period := .nonDisplay, line := s.timing.line + 1, part := .sync,
          pending := t.timing.pending, stopPending := t.timing.stopPending } ∧
      t.scan = .none ∧ t.store = s.store ∧ t.engine = s.engine ∧ t.arb = s.arb ∧ t.links = s.links ∧
      PassedAs s (s.timing.frameNumber + 1#16) t ∧
      ∀ p, (s.sessions.get p).state = .opened → (s.notices.get p).frameSub = true →
        .frame (s.timing.frameNumber + 1#16) ∈ (t.notices.get p).queue ∨ (t.notices.get p).lost = true) ∧
  (∀ (es fs : List QueueEntry) (s : State),
    let first := applyEntries es s
    let second := applyEntries fs first.1
    applyEntries (es ++ fs) s = (second.1, first.2 ++ second.2)) ∧
  (∀ (e : QueueEntry) (s : State), e.held = true → applyEntries [e] s = (s, [])) ∧
  (∀ (x : Transaction) (s : State), x.awaited = [] → (s.sessions.get x.port).state = .opened →
    ((s.pal.records.get x.port).unpublished = true → (s.pal.records.get x.port).grant ≠ none) →
    let one := applyEntries [.transaction x] s
    let told := deliver one.2 one.1
    AppliedAs s x.port x.tag x.edits s.timing.frameNumber told ∧ AppliedAlone s told ∧
      told.layout.queue = s.layout.queue) ∧
  (∀ (p : Port) (s : State), (s.sessions.get p).state = .closing → (s.sessions.get p).surfacesPending = true →
    s.alloc.reportOwed.get p = true →
    let one := applyEntries [.withdrawal p] s
    one.2 = [] ∧
      WithdrawnAs s p { one.1 with sessions := one.1.sessions.set p (atEventEnd (one.1.sessions.get p)) })

/-- The power sequencer at VBLANK_START, by the tables of R140, R141 and R143, with the stop request that the end of a tail
makes; every OPEN session is told of a change of state. LEAD_COUNT_REACHED and TAIL_COUNT_REACHED are that same event, when
its count reaches its target. -/
def Obligations.VblankDrivesThePower : Prop :=
  ∀ (s : State), s.timing.run = .running → s.timing.part = .display → s.timing.line + 1 = s.timing.active.vdl →
    let reached := s.power.stopRequested = false ∧ s.power.target ≤ s.power.frameCount + 1
    (∃ t, exec .vblankStart s = .next t ∧ t.power = powerAfterVblank s ∧
      (t.timing.stopPending = true ↔ s.timing.stopPending = true ∨ (s.power.state = .logicTail ∧ reached)) ∧
      (t.power.state ≠ s.power.state →
        ∀ p, (s.sessions.get p).state = .opened →
          .power t.power.state ∈ (t.notices.get p).queue ∨ (t.notices.get p).lost = true)) ∧
    (s.power.state = .logicLead → reached →
      exec .leadCountReached s = exec .vblankStart s ∧
        ∃ t, exec .leadCountReached s = .next t ∧ t.power.state = (if s.power.inhibit then .logicHeld else .lit)) ∧
    (s.power.state = .logicTail → reached →
      exec .tailCountReached s = exec .vblankStart s ∧
        ∃ t, exec .tailCountReached s = .next t ∧ t.power.stopRequested = true ∧ t.timing.stopPending = true)

/-- TIMING_STOPPED at the end of a frame with a stop pending: the generator stops, every entry that is not held is applied,
and the sequencer enters DARK; with demand present it starts again in the same event, ages the bands, sources line 0, and
tells DARK and then LOGIC_LEAD, merged with the other notices of the event in an order left open (log 7). The pass is
`applyEntries` of the queue, as at VBLANK_START, and State `u` is what it alone leaves. That period, line and part keep their
values in STOPPED is the model's choice (log 10). -/
def Obligations.TimingStopsAtTheFrameEnd : Prop :=
  ∀ (s : State), Lawful s → s.timing.run = .running → s.timing.part = .display →
    s.timing.line + 1 = s.timing.active.vdl + s.timing.active.vnd → s.timing.stopPending = true →
    let start : State :=
      { s with
        timing := { s.timing with run := .stopped, stopPending := false }
        scan := .none
        layout := { s.layout with queue := s.layout.queue.filter QueueEntry.held } }
    let pass := applyEntries s.layout.queue start
    ∃ (t u : State), exec .timingStopped s = .next t ∧
      PassLeft pass.1 u ∧ PassedAs s s.timing.frameNumber u ∧ u.notices = (deliver pass.2 s).notices ∧ u.arb = s.arb ∧
      t.store = s.store ∧ t.engine = s.engine ∧ t.links = s.links ∧ t.layout = u.layout ∧ t.pal = u.pal ∧
      t.alloc = u.alloc ∧ t.sessions = u.sessions ∧
      (demand s = false →
        t.timing = { s.timing with run := .stopped, stopPending := false, pending := u.timing.pending } ∧
        t.fresh = u.fresh ∧ ToldMerged s t [powerToEach .dark, pass.2] ∧
        t.power = { s.power with state := .dark, stopRequested := false } ∧ t.scan = .none ∧ t.arb = s.arb ∧
        panelOutputs t = ⟨false, false, false, false, []⟩ ∧ logicEn t = false) ∧
      (demand s = true →
        t.timing =
          { s.timing with
            run := .running, period := .display, line := 0, part := .sync, stopPending := false,
            active := t.layout.active.timing, pending := none } ∧
        t.power =
          { s.power with state := .logicLead, stopRequested := false, frameCount := 0, target := s.power.lead } ∧
        AgedAs u t ∧ SourcedAs u t.fresh.staleSet 0 t ∧
        ToldMerged s t [powerToEach .dark ++ powerToEach .logicLead, pass.2 ++ staleTold u] ∧
        t.scan ≠ .none ∧ logicEn t = true)

/-! ### Laws -/

/-- The frame store keeps its canonical form at every step, and nothing is stored outside it. -/
def Obligations.StoreKeepsItsForm : Prop :=
  ∀ (s t : State), Memory.wf s.store = true → step s = .next t → Memory.wf t.store = true

/-- Every law holds after power-on, for any straps, any levels on the RSTn and CSn pins and any commands that wait; and so it
does of State.reset. -/
def Obligations.LawsHoldAtPowerOn : Prop :=
  (∀ (v : Port) (k : Fin 4) (pins : PerPort PortPins) (n d : Nat) (waiting : List Instr),
    Lawful (State.powerOn v k pins n d waiting)) ∧ Lawful State.reset

/-- Every step keeps each link in order: one slot, one request in work, one access at the store for a request that waits for it. -/
def Obligations.LinksStayInOrder : Prop :=
  ∀ (s t : State), LinkLaw s → step s = .next t → LinkLaw t

/-- Every step keeps the law of the frame store: each block is in one surface or in one free extent, and the charges add up. -/
def Obligations.BlocksStayAccounted : Prop :=
  ∀ (s t : State), AllocLaw s.alloc → step s = .next t → AllocLaw t.alloc

/-- Every step keeps the grants of the palette apart, each of an allowed size at an aligned base, with its cursor inside it or parked. -/
def Obligations.GrantsStayApart : Prop :=
  let law (s : State) : Prop :=
    (∀ p q, p ≠ q → GrantsApart (grantOf s p) (grantOf s q)) ∧
      ∀ p g, grantOf s p = some g → GrantOk g ∧ ∀ c, (s.pal.records.get p).cursor = some c → CursorOk g c
  ∀ (s t : State), law s → step s = .next t → law t

/-- Every step keeps the laws of the active layout: bands in order, apart, inside the panel and their regions, within the limits, and timing
parameters in range. -/
def Obligations.LayoutStaysValid : Prop :=
  let law (s : State) : Prop :=
    LayoutOk s.layout.active ∧ (∀ p, EditsOk p (s.layout.staging.get p)) ∧ ∀ e ∈ s.layout.queue, EntryEditsOk e
  ∀ (s t : State), law s → step s = .next t → law t

/-- Every step keeps the timing generator and the power sequencer in step with each other, with the layout's parameters and
with the votes. -/
def Obligations.TimingAndPowerAgree : Prop :=
  ∀ (s t : State), TimingLaw s → PowerLaw s → step s = .next t → TimingLaw t ∧ PowerLaw t

/-- Every step keeps every law. -/
def Obligations.EveryStepKeepsTheLaws : Prop :=
  ∀ (s t : State), Lawful s → step s = .next t → Lawful t

/-- Where the laws hold no step stops the machine: every command ends in a next state. The one stop of the model is the
fault of FRAME_STORE_GRANT for an access beyond the frame store (log 23), which the laws rule out. -/
def Obligations.NoStepStops : Prop :=
  ∀ (s : State), Lawful s → GoesOn (step s)
end

