-- ==== Sys2Proof/Laws/State.lean ====
section
/-! SUPPORT. The small lemmas of PerPort and of the replacement of one port's record: what each update leaves of every field. -/

namespace Sys2Proof

/-! ### PerPort -/

theorem PerPort.ext_get {α : Type} {v w : PerPort α} (h : ∀ p, v.get p = w.get p) : v = w := by
  cases v; cases w
  have h0 := h .p0; have h1 := h .p1; have h2 := h .p2; have h3 := h .p3
  simp only [PerPort.get] at h0 h1 h2 h3
  subst h0 h1 h2 h3; rfl

@[simp] theorem PerPort.get_set_same {α : Type} (v : PerPort α) (p : Port) (x : α) : (v.set p x).get p = x := by
  cases p <;> rfl

theorem PerPort.get_set_ne {α : Type} (v : PerPort α) {p q : Port} (x : α) (h : q ≠ p) :
    (v.set p x).get q = v.get q := by
  cases p <;> cases q <;> first | rfl | exact absurd rfl h

theorem PerPort.get_set {α : Type} (v : PerPort α) (p q : Port) (x : α) :
    (v.set p x).get q = if q = p then x else v.get q := by
  by_cases h : q = p
  · subst h; simp
  · rw [PerPort.get_set_ne v x h, if_neg h]

@[simp] theorem PerPort.set_get {α : Type} (v : PerPort α) (p : Port) : v.set p (v.get p) = v := by
  cases p <;> rfl

@[simp] theorem PerPort.set_set {α : Type} (v : PerPort α) (p : Port) (x y : α) : (v.set p x).set p y = v.set p y := by
  cases p <;> rfl

theorem PerPort.set_comm {α : Type} (v : PerPort α) {p q : Port} (x y : α) (h : p ≠ q) :
    (v.set p x).set q y = (v.set q y).set p x := by
  cases p <;> cases q <;> first | rfl | exact absurd rfl h

@[simp] theorem PerPort.get_every {α : Type} (x : α) (p : Port) : (PerPort.every x).get p = x := by cases p <;> rfl

@[simp] theorem PerPort.get_map {α β : Type} (f : α → β) (v : PerPort α) (p : Port) : (v.map f).get p = f (v.get p) := by
  cases p <;> rfl

theorem PerPort.map_eq_self {α : Type} {f : α → α} {v : PerPort α} (h : ∀ p, f (v.get p) = v.get p) : v.map f = v :=
  PerPort.ext_get fun p => by rw [PerPort.get_map, h p]

@[simp] theorem Port.mem_all (p : Port) : p ∈ Port.all := by cases p <;> decide

theorem Port.forall_iff {P : Port → Prop} : (∀ p, P p) ↔ P .p0 ∧ P .p1 ∧ P .p2 ∧ P .p3 :=
  ⟨fun h => ⟨h _, h _, h _, h _⟩, fun ⟨a, b, c, d⟩ p => by cases p <;> assumption⟩

theorem Port.toNat_injective {p q : Port} (h : p.toNat = q.toNat) : p = q := by
  cases p <;> cases q <;> first | rfl | exact absurd h (by decide)

@[simp] theorem Port.ofNat?_toNat (p : Port) : Port.ofNat? p.toNat = some p := by cases p <;> rfl

theorem Port.ofNat?_eq_none {n : Nat} : Port.ofNat? n = none ↔ 3 < n := by
  match n with
  | 0 | 1 | 2 | 3 => simp [Port.ofNat?]
  | n + 4 => simp [Port.ofNat?]

theorem Port.ofNat?_eq_some {n : Nat} {p : Port} : Port.ofNat? n = some p ↔ p.toNat = n := by
  constructor
  · intro h
    match n with
    | 0 | 1 | 2 | 3 => cases p <;> simp_all [Port.ofNat?, Port.toNat]
    | n + 4 => simp [Port.ofNat?] at h
  · rintro rfl; exact Port.ofNat?_toNat p

end Sys2Proof

namespace Sys2Proof.Machine

/-! ### State.setLink -/

section
variable (s : State) (p : Port) (l : Link)

@[simp] theorem State.setLink_supv : (s.setLink p l).supv = s.supv := rfl
@[simp] theorem State.setLink_preset : (s.setLink p l).preset = s.preset := rfl
@[simp] theorem State.setLink_links : (s.setLink p l).links = s.links.set p l := rfl
@[simp] theorem State.setLink_sessions : (s.setLink p l).sessions = s.sessions := rfl
@[simp] theorem State.setLink_notices : (s.setLink p l).notices = s.notices := rfl
@[simp] theorem State.setLink_layout : (s.setLink p l).layout = s.layout := rfl
@[simp] theorem State.setLink_alloc : (s.setLink p l).alloc = s.alloc := rfl
@[simp] theorem State.setLink_store : (s.setLink p l).store = s.store := rfl
@[simp] theorem State.setLink_arb : (s.setLink p l).arb = s.arb := rfl
@[simp] theorem State.setLink_pal : (s.setLink p l).pal = s.pal := rfl
@[simp] theorem State.setLink_engine : (s.setLink p l).engine = s.engine := rfl
@[simp] theorem State.setLink_timing : (s.setLink p l).timing = s.timing := rfl
@[simp] theorem State.setLink_scan : (s.setLink p l).scan = s.scan := rfl
@[simp] theorem State.setLink_fresh : (s.setLink p l).fresh = s.fresh := rfl
@[simp] theorem State.setLink_power : (s.setLink p l).power = s.power := rfl
@[simp] theorem State.setLink_powerOns : (s.setLink p l).powerOns = s.powerOns := rfl
@[simp] theorem State.setLink_draws : (s.setLink p l).draws = s.draws := rfl
@[simp] theorem State.setLink_pending : (s.setLink p l).pending = s.pending := rfl

end

/-! ### State.setSession -/

section
variable (s : State) (p : Port) (x : Session)

@[simp] theorem State.setSession_supv : (s.setSession p x).supv = s.supv := rfl
@[simp] theorem State.setSession_preset : (s.setSession p x).preset = s.preset := rfl
@[simp] theorem State.setSession_links : (s.setSession p x).links = s.links := rfl
@[simp] theorem State.setSession_sessions : (s.setSession p x).sessions = s.sessions.set p x := rfl
@[simp] theorem State.setSession_notices : (s.setSession p x).notices = s.notices := rfl
@[simp] theorem State.setSession_layout : (s.setSession p x).layout = s.layout := rfl
@[simp] theorem State.setSession_alloc : (s.setSession p x).alloc = s.alloc := rfl
@[simp] theorem State.setSession_store : (s.setSession p x).store = s.store := rfl
@[simp] theorem State.setSession_arb : (s.setSession p x).arb = s.arb := rfl
@[simp] theorem State.setSession_pal : (s.setSession p x).pal = s.pal := rfl
@[simp] theorem State.setSession_engine : (s.setSession p x).engine = s.engine := rfl
@[simp] theorem State.setSession_timing : (s.setSession p x).timing = s.timing := rfl
@[simp] theorem State.setSession_scan : (s.setSession p x).scan = s.scan := rfl
@[simp] theorem State.setSession_fresh : (s.setSession p x).fresh = s.fresh := rfl
@[simp] theorem State.setSession_power : (s.setSession p x).power = s.power := rfl
@[simp] theorem State.setSession_powerOns : (s.setSession p x).powerOns = s.powerOns := rfl
@[simp] theorem State.setSession_draws : (s.setSession p x).draws = s.draws := rfl
@[simp] theorem State.setSession_pending : (s.setSession p x).pending = s.pending := rfl

end

/-! ### State.setNotices -/

section
variable (s : State) (p : Port) (q : NoticeQueue)

@[simp] theorem State.setNotices_supv : (s.setNotices p q).supv = s.supv := rfl
@[simp] theorem State.setNotices_preset : (s.setNotices p q).preset = s.preset := rfl
@[simp] theorem State.setNotices_links : (s.setNotices p q).links = s.links := rfl
@[simp] theorem State.setNotices_sessions : (s.setNotices p q).sessions = s.sessions := rfl
@[simp] theorem State.setNotices_notices : (s.setNotices p q).notices = s.notices.set p q := rfl
@[simp] theorem State.setNotices_layout : (s.setNotices p q).layout = s.layout := rfl
@[simp] theorem State.setNotices_alloc : (s.setNotices p q).alloc = s.alloc := rfl
@[simp] theorem State.setNotices_store : (s.setNotices p q).store = s.store := rfl
@[simp] theorem State.setNotices_arb : (s.setNotices p q).arb = s.arb := rfl
@[simp] theorem State.setNotices_pal : (s.setNotices p q).pal = s.pal := rfl
@[simp] theorem State.setNotices_engine : (s.setNotices p q).engine = s.engine := rfl
@[simp] theorem State.setNotices_timing : (s.setNotices p q).timing = s.timing := rfl
@[simp] theorem State.setNotices_scan : (s.setNotices p q).scan = s.scan := rfl
@[simp] theorem State.setNotices_fresh : (s.setNotices p q).fresh = s.fresh := rfl
@[simp] theorem State.setNotices_power : (s.setNotices p q).power = s.power := rfl
@[simp] theorem State.setNotices_powerOns : (s.setNotices p q).powerOns = s.powerOns := rfl
@[simp] theorem State.setNotices_draws : (s.setNotices p q).draws = s.draws := rfl
@[simp] theorem State.setNotices_pending : (s.setNotices p q).pending = s.pending := rfl

end

/-! ### State.setPalRecord -/

section
variable (s : State) (p : Port) (r : PalRecord)

@[simp] theorem State.setPalRecord_supv : (s.setPalRecord p r).supv = s.supv := rfl
@[simp] theorem State.setPalRecord_preset : (s.setPalRecord p r).preset = s.preset := rfl
@[simp] theorem State.setPalRecord_links : (s.setPalRecord p r).links = s.links := rfl
@[simp] theorem State.setPalRecord_sessions : (s.setPalRecord p r).sessions = s.sessions := rfl
@[simp] theorem State.setPalRecord_notices : (s.setPalRecord p r).notices = s.notices := rfl
@[simp] theorem State.setPalRecord_layout : (s.setPalRecord p r).layout = s.layout := rfl
@[simp] theorem State.setPalRecord_alloc : (s.setPalRecord p r).alloc = s.alloc := rfl
@[simp] theorem State.setPalRecord_store : (s.setPalRecord p r).store = s.store := rfl
@[simp] theorem State.setPalRecord_arb : (s.setPalRecord p r).arb = s.arb := rfl
@[simp] theorem State.setPalRecord_pal : (s.setPalRecord p r).pal = { s.pal with records := s.pal.records.set p r } := rfl
@[simp] theorem State.setPalRecord_engine : (s.setPalRecord p r).engine = s.engine := rfl
@[simp] theorem State.setPalRecord_timing : (s.setPalRecord p r).timing = s.timing := rfl
@[simp] theorem State.setPalRecord_scan : (s.setPalRecord p r).scan = s.scan := rfl
@[simp] theorem State.setPalRecord_fresh : (s.setPalRecord p r).fresh = s.fresh := rfl
@[simp] theorem State.setPalRecord_power : (s.setPalRecord p r).power = s.power := rfl
@[simp] theorem State.setPalRecord_powerOns : (s.setPalRecord p r).powerOns = s.powerOns := rfl
@[simp] theorem State.setPalRecord_draws : (s.setPalRecord p r).draws = s.draws := rfl
@[simp] theorem State.setPalRecord_pending : (s.setPalRecord p r).pending = s.pending := rfl

end

/-! ### State.setStaging -/

section
variable (s : State) (p : Port) (es : List Edit)

@[simp] theorem State.setStaging_supv : (s.setStaging p es).supv = s.supv := rfl
@[simp] theorem State.setStaging_preset : (s.setStaging p es).preset = s.preset := rfl
@[simp] theorem State.setStaging_links : (s.setStaging p es).links = s.links := rfl
@[simp] theorem State.setStaging_sessions : (s.setStaging p es).sessions = s.sessions := rfl
@[simp] theorem State.setStaging_notices : (s.setStaging p es).notices = s.notices := rfl
@[simp] theorem State.setStaging_layout : (s.setStaging p es).layout = { s.layout with staging := s.layout.staging.set p es } := rfl
@[simp] theorem State.setStaging_alloc : (s.setStaging p es).alloc = s.alloc := rfl
@[simp] theorem State.setStaging_store : (s.setStaging p es).store = s.store := rfl
@[simp] theorem State.setStaging_arb : (s.setStaging p es).arb = s.arb := rfl
@[simp] theorem State.setStaging_pal : (s.setStaging p es).pal = s.pal := rfl
@[simp] theorem State.setStaging_engine : (s.setStaging p es).engine = s.engine := rfl
@[simp] theorem State.setStaging_timing : (s.setStaging p es).timing = s.timing := rfl
@[simp] theorem State.setStaging_scan : (s.setStaging p es).scan = s.scan := rfl
@[simp] theorem State.setStaging_fresh : (s.setStaging p es).fresh = s.fresh := rfl
@[simp] theorem State.setStaging_power : (s.setStaging p es).power = s.power := rfl
@[simp] theorem State.setStaging_powerOns : (s.setStaging p es).powerOns = s.powerOns := rfl
@[simp] theorem State.setStaging_draws : (s.setStaging p es).draws = s.draws := rfl
@[simp] theorem State.setStaging_pending : (s.setStaging p es).pending = s.pending := rfl

end

/-! ### State.setRecord -/

section
variable (s : State) (p : Port) (r : SubmitRecord)

@[simp] theorem State.setRecord_supv : (s.setRecord p r).supv = s.supv := rfl
@[simp] theorem State.setRecord_preset : (s.setRecord p r).preset = s.preset := rfl
@[simp] theorem State.setRecord_links : (s.setRecord p r).links = s.links := rfl
@[simp] theorem State.setRecord_sessions : (s.setRecord p r).sessions = s.sessions := rfl
@[simp] theorem State.setRecord_notices : (s.setRecord p r).notices = s.notices := rfl
@[simp] theorem State.setRecord_layout : (s.setRecord p r).layout = { s.layout with record := s.layout.record.set p r } := rfl
@[simp] theorem State.setRecord_alloc : (s.setRecord p r).alloc = s.alloc := rfl
@[simp] theorem State.setRecord_store : (s.setRecord p r).store = s.store := rfl
@[simp] theorem State.setRecord_arb : (s.setRecord p r).arb = s.arb := rfl
@[simp] theorem State.setRecord_pal : (s.setRecord p r).pal = s.pal := rfl
@[simp] theorem State.setRecord_engine : (s.setRecord p r).engine = s.engine := rfl
@[simp] theorem State.setRecord_timing : (s.setRecord p r).timing = s.timing := rfl
@[simp] theorem State.setRecord_scan : (s.setRecord p r).scan = s.scan := rfl
@[simp] theorem State.setRecord_fresh : (s.setRecord p r).fresh = s.fresh := rfl
@[simp] theorem State.setRecord_power : (s.setRecord p r).power = s.power := rfl
@[simp] theorem State.setRecord_powerOns : (s.setRecord p r).powerOns = s.powerOns := rfl
@[simp] theorem State.setRecord_draws : (s.setRecord p r).draws = s.draws := rfl
@[simp] theorem State.setRecord_pending : (s.setRecord p r).pending = s.pending := rfl

end

/-! ### State.setQueue -/

section
variable (s : State) (q : List QueueEntry)

@[simp] theorem State.setQueue_supv : (s.setQueue q).supv = s.supv := rfl
@[simp] theorem State.setQueue_preset : (s.setQueue q).preset = s.preset := rfl
@[simp] theorem State.setQueue_links : (s.setQueue q).links = s.links := rfl
@[simp] theorem State.setQueue_sessions : (s.setQueue q).sessions = s.sessions := rfl
@[simp] theorem State.setQueue_notices : (s.setQueue q).notices = s.notices := rfl
@[simp] theorem State.setQueue_layout : (s.setQueue q).layout = { s.layout with queue := q } := rfl
@[simp] theorem State.setQueue_alloc : (s.setQueue q).alloc = s.alloc := rfl
@[simp] theorem State.setQueue_store : (s.setQueue q).store = s.store := rfl
@[simp] theorem State.setQueue_arb : (s.setQueue q).arb = s.arb := rfl
@[simp] theorem State.setQueue_pal : (s.setQueue q).pal = s.pal := rfl
@[simp] theorem State.setQueue_engine : (s.setQueue q).engine = s.engine := rfl
@[simp] theorem State.setQueue_timing : (s.setQueue q).timing = s.timing := rfl
@[simp] theorem State.setQueue_scan : (s.setQueue q).scan = s.scan := rfl
@[simp] theorem State.setQueue_fresh : (s.setQueue q).fresh = s.fresh := rfl
@[simp] theorem State.setQueue_power : (s.setQueue q).power = s.power := rfl
@[simp] theorem State.setQueue_powerOns : (s.setQueue q).powerOns = s.powerOns := rfl
@[simp] theorem State.setQueue_draws : (s.setQueue q).draws = s.draws := rfl
@[simp] theorem State.setQueue_pending : (s.setQueue q).pending = s.pending := rfl

end

/-! ### State.setEntry -/

section
variable (s : State) (i : Fin 32) (e : SurfEntry)

@[simp] theorem State.setEntry_supv : (s.setEntry i e).supv = s.supv := rfl
@[simp] theorem State.setEntry_preset : (s.setEntry i e).preset = s.preset := rfl
@[simp] theorem State.setEntry_links : (s.setEntry i e).links = s.links := rfl
@[simp] theorem State.setEntry_sessions : (s.setEntry i e).sessions = s.sessions := rfl
@[simp] theorem State.setEntry_notices : (s.setEntry i e).notices = s.notices := rfl
@[simp] theorem State.setEntry_layout : (s.setEntry i e).layout = s.layout := rfl
@[simp] theorem State.setEntry_alloc : (s.setEntry i e).alloc = { s.alloc with table := s.alloc.table.set i.val e i.isLt } := rfl
@[simp] theorem State.setEntry_store : (s.setEntry i e).store = s.store := rfl
@[simp] theorem State.setEntry_arb : (s.setEntry i e).arb = s.arb := rfl
@[simp] theorem State.setEntry_pal : (s.setEntry i e).pal = s.pal := rfl
@[simp] theorem State.setEntry_engine : (s.setEntry i e).engine = s.engine := rfl
@[simp] theorem State.setEntry_timing : (s.setEntry i e).timing = s.timing := rfl
@[simp] theorem State.setEntry_scan : (s.setEntry i e).scan = s.scan := rfl
@[simp] theorem State.setEntry_fresh : (s.setEntry i e).fresh = s.fresh := rfl
@[simp] theorem State.setEntry_power : (s.setEntry i e).power = s.power := rfl
@[simp] theorem State.setEntry_powerOns : (s.setEntry i e).powerOns = s.powerOns := rfl
@[simp] theorem State.setEntry_draws : (s.setEntry i e).draws = s.draws := rfl
@[simp] theorem State.setEntry_pending : (s.setEntry i e).pending = s.pending := rfl

end

/-! ### State.setJobs -/

section
variable (s : State) (js : List Job)

@[simp] theorem State.setJobs_supv : (s.setJobs js).supv = s.supv := rfl
@[simp] theorem State.setJobs_preset : (s.setJobs js).preset = s.preset := rfl
@[simp] theorem State.setJobs_links : (s.setJobs js).links = s.links := rfl
@[simp] theorem State.setJobs_sessions : (s.setJobs js).sessions = s.sessions := rfl
@[simp] theorem State.setJobs_notices : (s.setJobs js).notices = s.notices := rfl
@[simp] theorem State.setJobs_layout : (s.setJobs js).layout = s.layout := rfl
@[simp] theorem State.setJobs_alloc : (s.setJobs js).alloc = s.alloc := rfl
@[simp] theorem State.setJobs_store : (s.setJobs js).store = s.store := rfl
@[simp] theorem State.setJobs_arb : (s.setJobs js).arb = s.arb := rfl
@[simp] theorem State.setJobs_pal : (s.setJobs js).pal = s.pal := rfl
@[simp] theorem State.setJobs_engine : (s.setJobs js).engine = { s.engine with jobs := js } := rfl
@[simp] theorem State.setJobs_timing : (s.setJobs js).timing = s.timing := rfl
@[simp] theorem State.setJobs_scan : (s.setJobs js).scan = s.scan := rfl
@[simp] theorem State.setJobs_fresh : (s.setJobs js).fresh = s.fresh := rfl
@[simp] theorem State.setJobs_power : (s.setJobs js).power = s.power := rfl
@[simp] theorem State.setJobs_powerOns : (s.setJobs js).powerOns = s.powerOns := rfl
@[simp] theorem State.setJobs_draws : (s.setJobs js).draws = s.draws := rfl
@[simp] theorem State.setJobs_pending : (s.setJobs js).pending = s.pending := rfl

end

/-! ### State.setVote -/

section
variable (s : State) (p : Port) (v : Option Vote)

@[simp] theorem State.setVote_supv : (s.setVote p v).supv = s.supv := rfl
@[simp] theorem State.setVote_preset : (s.setVote p v).preset = s.preset := rfl
@[simp] theorem State.setVote_links : (s.setVote p v).links = s.links := rfl
@[simp] theorem State.setVote_sessions : (s.setVote p v).sessions = s.sessions := rfl
@[simp] theorem State.setVote_notices : (s.setVote p v).notices = s.notices := rfl
@[simp] theorem State.setVote_layout : (s.setVote p v).layout = s.layout := rfl
@[simp] theorem State.setVote_alloc : (s.setVote p v).alloc = s.alloc := rfl
@[simp] theorem State.setVote_store : (s.setVote p v).store = s.store := rfl
@[simp] theorem State.setVote_arb : (s.setVote p v).arb = s.arb := rfl
@[simp] theorem State.setVote_pal : (s.setVote p v).pal = s.pal := rfl
@[simp] theorem State.setVote_engine : (s.setVote p v).engine = s.engine := rfl
@[simp] theorem State.setVote_timing : (s.setVote p v).timing = s.timing := rfl
@[simp] theorem State.setVote_scan : (s.setVote p v).scan = s.scan := rfl
@[simp] theorem State.setVote_fresh : (s.setVote p v).fresh = s.fresh := rfl
@[simp] theorem State.setVote_power : (s.setVote p v).power = { s.power with votes := s.power.votes.set p v } := rfl
@[simp] theorem State.setVote_powerOns : (s.setVote p v).powerOns = s.powerOns := rfl
@[simp] theorem State.setVote_draws : (s.setVote p v).draws = s.draws := rfl
@[simp] theorem State.setVote_pending : (s.setVote p v).pending = s.pending := rfl

end

/-! ### Replies -/

section
variable (a : Bool) (p : Port) (q : Byte) (st : Status) (pl : List Byte) (s : State)

@[simp] theorem putReply_supv : (putReply a p q st pl s).supv = s.supv := rfl
@[simp] theorem fillReply_supv : (fillReply p st pl s).supv = s.supv := rfl
@[simp] theorem putReply_preset : (putReply a p q st pl s).preset = s.preset := rfl
@[simp] theorem fillReply_preset : (fillReply p st pl s).preset = s.preset := rfl
@[simp] theorem putReply_sessions : (putReply a p q st pl s).sessions = s.sessions := rfl
@[simp] theorem fillReply_sessions : (fillReply p st pl s).sessions = s.sessions := rfl
@[simp] theorem putReply_notices : (putReply a p q st pl s).notices = s.notices := rfl
@[simp] theorem fillReply_notices : (fillReply p st pl s).notices = s.notices := rfl
@[simp] theorem putReply_layout : (putReply a p q st pl s).layout = s.layout := rfl
@[simp] theorem fillReply_layout : (fillReply p st pl s).layout = s.layout := rfl
@[simp] theorem putReply_alloc : (putReply a p q st pl s).alloc = s.alloc := rfl
@[simp] theorem fillReply_alloc : (fillReply p st pl s).alloc = s.alloc := rfl
@[simp] theorem putReply_store : (putReply a p q st pl s).store = s.store := rfl
@[simp] theorem fillReply_store : (fillReply p st pl s).store = s.store := rfl
@[simp] theorem putReply_arb : (putReply a p q st pl s).arb = s.arb := rfl
@[simp] theorem fillReply_arb : (fillReply p st pl s).arb = s.arb := rfl
@[simp] theorem putReply_pal : (putReply a p q st pl s).pal = s.pal := rfl
@[simp] theorem fillReply_pal : (fillReply p st pl s).pal = s.pal := rfl
@[simp] theorem putReply_engine : (putReply a p q st pl s).engine = s.engine := rfl
@[simp] theorem fillReply_engine : (fillReply p st pl s).engine = s.engine := rfl
@[simp] theorem putReply_timing : (putReply a p q st pl s).timing = s.timing := rfl
@[simp] theorem fillReply_timing : (fillReply p st pl s).timing = s.timing := rfl
@[simp] theorem putReply_scan : (putReply a p q st pl s).scan = s.scan := rfl
@[simp] theorem fillReply_scan : (fillReply p st pl s).scan = s.scan := rfl
@[simp] theorem putReply_fresh : (putReply a p q st pl s).fresh = s.fresh := rfl
@[simp] theorem fillReply_fresh : (fillReply p st pl s).fresh = s.fresh := rfl
@[simp] theorem putReply_power : (putReply a p q st pl s).power = s.power := rfl
@[simp] theorem fillReply_power : (fillReply p st pl s).power = s.power := rfl
@[simp] theorem putReply_powerOns : (putReply a p q st pl s).powerOns = s.powerOns := rfl
@[simp] theorem fillReply_powerOns : (fillReply p st pl s).powerOns = s.powerOns := rfl
@[simp] theorem putReply_draws : (putReply a p q st pl s).draws = s.draws := rfl
@[simp] theorem fillReply_draws : (fillReply p st pl s).draws = s.draws := rfl
@[simp] theorem putReply_pending : (putReply a p q st pl s).pending = s.pending := rfl
@[simp] theorem fillReply_pending : (fillReply p st pl s).pending = s.pending := rfl

end

end Sys2Proof.Machine
end

