-- ==== Sys2Proof/Laws/Check.lean ====
section
/-! SUPPORT. A check of the laws on a concrete state, and its soundness: what shows that a state the tests build is lawful. -/

namespace Sys2Proof.Machine

/-- A check at every port. -/
def eachPort (f : Port → Bool) : Bool := Port.all.all f

theorem eachPort_iff {f : Port → Bool} : eachPort f = true ↔ ∀ p, f p = true := by
  simp [eachPort, List.all_eq_true]

def linkOkCheck (l : Link) : Bool :=
  decide (l.state = .executing ↔ l.work.isSome = true) && decide (l.state = .replyReady ↔ l.slot.isSome = true) &&
    decide (l.overrun = true → l.state = .executing) && decide (l.rstLow = true → l.state = .ready ∧ l.window = none) &&
    (l.window.all fun w => decide (w.fromSlot = true → l.slot = some w.reply)) && decide (l.progress = 0) &&
    decide (l.window ≠ none → l.csLow = true)

theorem linkOk_of_check {l : Link} (h : linkOkCheck l = true) : LinkOk l := by
  simp only [linkOkCheck, Bool.and_eq_true, decide_eq_true_eq, Option.all_eq_true] at h
  obtain ⟨⟨⟨⟨⟨⟨a, b⟩, c⟩, d⟩, e⟩, f⟩, g⟩ := h
  exact ⟨a, b, c, d, g, fun w hw => e w hw, f⟩

def waitsCheck (s : State) (p : Port) : Bool := decide ((s.links.get p).work.map Work.posted = some true)

def linkCheck (s : State) : Bool :=
  eachPort (fun p => linkOkCheck (s.links.get p)) &&
    (s.arb.ports.all fun a => waitsCheck s a.port && decide ((s.sessions.get a.port).state = .opened)) &&
    decide (s.arb.ports.map PortAccess.port).Nodup &&
    eachPort (fun p =>
      !owesReply s.arb.busy p || (waitsCheck s p && s.arb.ports.all fun a => decide (a.port ≠ p))) &&
    eachPort fun p =>
      !waitsCheck s p || (s.arb.ports.any fun a => decide (a.port = p)) || owesReply s.arb.busy p

theorem linkLaw_of_check {s : State} (h : linkCheck s = true) : LinkLaw s := by
  simp only [linkCheck, Bool.and_eq_true, eachPort_iff, List.all_eq_true, List.any_eq_true, Bool.or_eq_true,
    Bool.not_eq_true', decide_eq_true_eq, waitsCheck] at h
  obtain ⟨⟨⟨⟨h1, h2⟩, h3⟩, h4⟩, h5⟩ := h
  refine ⟨fun p => linkOk_of_check (h1 p), h2, h3, fun p hp => ?_, fun p hp => ?_⟩
  · rcases h4 p with h | h
    · rw [h] at hp; exact absurd hp (by decide)
    · exact h
  · rcases h5 p with (h | h) | h
    · exact absurd hp (by simpa [waitsForStore] using h)
    · exact Or.inl h
    · exact Or.inr h

def entryCheck (s : State) : QueueEntry → Bool
  | .transaction t =>
    decide ((s.sessions.get t.port).state = .opened) && decide (s.layout.staging.get t.port = []) &&
      decide (outcomeCount (s.notices.get t.port).queue = 0) && decide (s.layout.record.get t.port = .queued)
  | .withdrawal p =>
    decide ((s.sessions.get p).state = .closing) && decide ((s.sessions.get p).withdrawalPending = true)

theorem entryOk_of_check {s : State} {e : QueueEntry} (h : entryCheck s e = true) : EntryOk s e := by
  cases e with
  | transaction t =>
    simp only [entryCheck, Bool.and_eq_true, decide_eq_true_eq] at h
    exact ⟨h.1.1.1, h.1.1.2, h.1.2, h.2⟩
  | withdrawal p =>
    simp only [entryCheck, Bool.and_eq_true, decide_eq_true_eq] at h
    exact h

def sessionCheckAll (s : State) (p : Port) : Bool :=
  decide ((s.sessions.get p).state = .closing ↔
      ((s.sessions.get p).withdrawalPending = true ∨ (s.sessions.get p).surfacesPending = true)) &&
    decide ((s.sessions.get p).state = .idle ↔ (s.sessions.get p).label = none) &&
    decide ((s.sessions.get p).withdrawalPending = true → .withdrawal p ∈ s.layout.queue) &&
    decide ((s.layout.staging.get p).length ≤ Config.maxEdits) &&
    decide ((s.sessions.get p).state ≠ .opened → s.layout.staging.get p = []) &&
    decide ((s.sessions.get p).state ≠ .opened → s.layout.record.get p = .noSubmit) &&
    decide (s.layout.record.get p = .queued → hasTransaction s p = true) &&
    decide ((s.sessions.get p).state ≠ .opened → s.notices.get p = NoticeQueue.cleared) &&
    decide (outcomeCount (s.notices.get p).queue ≤ 1) &&
    decide (otherCount (s.notices.get p).queue ≤ Config.maxOtherNotices)

def queueCheck (s : State) : Bool :=
  decide (s.layout.queue.map QueueEntry.port).Nodup && s.layout.queue.all (entryCheck s) &&
    decide (s.timing.run = .stopped → s.layout.queue.all QueueEntry.held = true) && eachPort (sessionCheckAll s)

theorem queueLaw_of_check {s : State} (h : queueCheck s = true) : QueueLaw s := by
  simp only [queueCheck, Bool.and_eq_true, eachPort_iff, List.all_eq_true, decide_eq_true_eq] at h
  obtain ⟨⟨⟨h1, h2⟩, h3⟩, h4⟩ := h
  refine ⟨h1, fun e he => entryOk_of_check (h2 e he), h3, fun p => ?_⟩
  have hp := h4 p
  simp only [sessionCheckAll, Bool.and_eq_true, decide_eq_true_eq] at hp
  obtain ⟨⟨⟨⟨⟨⟨⟨⟨⟨a, b⟩, c⟩, d⟩, e⟩, f⟩, g⟩, i⟩, j⟩, k⟩ := hp
  exact ⟨a, b, c, d, e, f, g, i, j, k⟩

def layoutOkCheck (l : Layout) : Bool :=
  (l.bands.all fun b =>
      decide (1 ≤ b.count) && decide (b.first + b.count ≤ l.timing.vdl) && b.within (l.regions.get b.key.owner)) &&
    decide (l.bands.Pairwise fun a b => a.first + a.count ≤ b.first) && decide (l.bands.map Band.key).Nodup &&
    bandCountOk l.bands && timingInRange l.timing

def stageableCheck (p : Port) (es : List Edit) : Bool := es.all (Edit.stageable p)

def layoutCheck (s : State) : Bool :=
  layoutOkCheck s.layout.active && eachPort (fun p => stageableCheck p (s.layout.staging.get p)) &&
    (s.layout.queue.all fun e =>
      match e with
      | .transaction t => stageableCheck t.port t.edits
      | .withdrawal _ => true) &&
    decide (s.fresh.records.map FreshRecord.key = s.layout.active.bands.map Band.key) &&
    (s.fresh.records.all fun r =>
      decide (r.age ≤ limitOf s.layout.active.bands r.key) &&
        decide (r.mark = true ↔
          (1 ≤ limitOf s.layout.active.bands r.key ∧ r.age = limitOf s.layout.active.bands r.key))) &&
    s.layout.active.bands.all fun b =>
      decide ((s.sessions.get b.key.owner).state = .opened ∨
        (s.sessions.get b.key.owner).withdrawalPending = true)

theorem layoutLaw_of_check {s : State} (h : layoutCheck s = true) : LayoutLaw s := by
  simp only [layoutCheck, layoutOkCheck, stageableCheck, Bool.and_eq_true, eachPort_iff, List.all_eq_true,
    decide_eq_true_eq] at h
  obtain ⟨⟨⟨⟨⟨⟨⟨⟨⟨a, b⟩, c⟩, d⟩, e⟩, f⟩, g⟩, i⟩, j⟩, k⟩ := h
  refine ⟨⟨fun x hx => ⟨(a x hx).1.1, (a x hx).1.2, (a x hx).2⟩, b, c, d, e⟩, f, fun x hx => ?_, i, j, k⟩
  have hg := g x hx
  cases x with
  | transaction t => exact List.all_eq_true.1 hg
  | withdrawal p => exact True.intro

def timingCheck (s : State) : Bool :=
  decide (s.layout.active.timing = s.timing.pending.getD s.timing.active) && timingInRange s.timing.active &&
    s.timing.pending.all timingInRange &&
    decide (s.timing.run = .running → s.timing.period = .display → s.timing.pending = none) &&
    decide (s.timing.run = .stopped → s.timing.stopPending = false) &&
    decide (s.timing.run = .running → s.timing.line < s.timing.active.vdl + s.timing.active.vnd) &&
    decide (s.timing.run = .running → (s.timing.period = .display ↔ s.timing.line < s.timing.active.vdl))

theorem timingLaw_of_check {s : State} (h : timingCheck s = true) : TimingLaw s := by
  simp only [timingCheck, Bool.and_eq_true, decide_eq_true_eq, Option.all_eq_true] at h
  obtain ⟨⟨⟨⟨⟨⟨a, b⟩, c⟩, d⟩, e⟩, f⟩, g⟩ := h
  exact ⟨a, b, c, d, e, f, g⟩

def powerCheck (s : State) : Bool :=
  decide (s.power.state = .dark ↔ s.timing.run = .stopped) && decide (s.power.stopRequested = s.timing.stopPending) &&
    decide (s.power.stopRequested = true → s.power.state = .logicLead ∨ s.power.state = .logicTail) &&
    decide (s.power.state = .dark → demand s = false) &&
    decide (s.power.state = .logicLead → s.power.stopRequested = false → demand s = true) &&
    decide (s.power.state = .logicHeld → demand s = true) &&
    decide (s.power.state = .logicTail → s.power.stopRequested = false → demand s = false) &&
    eachPort (fun p => decide ((s.sessions.get p).state = .opened ↔ (s.power.votes.get p).isSome = true)) &&
    decide (s.power.lead ≤ 255 ∧ 1 ≤ s.power.tail ∧ s.power.tail ≤ 255 ∧ s.power.frameCount ≤ 255 ∧ s.power.target ≤ 255) &&
    decide (s.power.state = .logicLead ∨ s.power.state = .logicTail → s.power.stopRequested = false →
      s.power.frameCount = 0 ∨ s.power.frameCount < s.power.target)

theorem powerLaw_of_check {s : State} (h : powerCheck s = true) : PowerLaw s := by
  simp only [powerCheck, Bool.and_eq_true, decide_eq_true_eq, eachPort_iff] at h
  obtain ⟨⟨⟨⟨⟨⟨⟨⟨⟨a, b⟩, c⟩, d⟩, e⟩, f⟩, g⟩, i⟩, j⟩, k⟩ := h
  exact ⟨a, b, c, d, e, f, g, i, j, k⟩

def apartCheck : Option Grant → Option Grant → Bool
  | some g, some h => decide (g.base + g.size ≤ h.base ∨ h.base + h.size ≤ g.base)
  | some _, none | none, some _ | none, none => true

theorem apart_of_check {a b : Option Grant} (h : apartCheck a b = true) : GrantsApart a b := by
  cases a with
  | none => cases b <;> exact True.intro
  | some g =>
    cases b with
    | none => exact True.intro
    | some k => simpa [apartCheck, GrantsApart] using h

def palRecordCheck (s : State) (p : Port) : Bool :=
  ((grantOf s p).all fun g =>
      decide (g.size ∈ grantSizes ∧ g.base % g.size = 0 ∧ g.base + g.size ≤ 256) &&
        decide ((s.sessions.get p).state ≠ .idle)) &&
    decide ((s.sessions.get p).state = .closing → (s.sessions.get p).withdrawalPending = false → grantOf s p = none) &&
    decide ((s.pal.records.get p).cursor.isSome = true ↔
      ((grantOf s p).isSome = true ∧ (s.sessions.get p).state = .opened)) &&
    ((grantOf s p).all fun g => (s.pal.records.get p).cursor.all fun c =>
      decide (c.offset ≤ g.size ∧ (c.offset = g.size → c.component = .red))) &&
    decide ((s.pal.records.get p).unpublished = true → (grantOf s p).isSome = true)

def paletteCheck (s : State) : Bool :=
  eachPort (fun p => eachPort fun q => decide (p = q) || apartCheck (grantOf s p) (grantOf s q)) &&
    eachPort (palRecordCheck s)

theorem paletteLaw_of_check {s : State} (h : paletteCheck s = true) : PaletteLaw s := by
  simp only [paletteCheck, Bool.and_eq_true, eachPort_iff, Bool.or_eq_true, decide_eq_true_eq] at h
  refine ⟨fun p q hpq => ?_, fun p => ?_⟩
  · rcases h.1 p q with h | h
    · exact absurd h hpq
    · exact apart_of_check h
  · have hp := h.2 p
    simp only [palRecordCheck, Bool.and_eq_true, decide_eq_true_eq, Option.all_eq_true] at hp
    obtain ⟨⟨⟨⟨a, b⟩, c⟩, d⟩, e⟩ := hp
    exact ⟨a, b, c, fun g c' hg hc => d g hg c' hc, e⟩

def allocCheck (a : Allocator) : Bool :=
  ((List.range Config.blocks).all fun b => decide (holders a b = 1)) &&
    (a.free.all fun x => decide (1 ≤ x.length ∧ x.start + x.length ≤ Config.blocks)) &&
    (a.table.toList.all fun e =>
      decide (e.state ≠ .free → 1 ≤ e.blockCount ∧ e.firstBlock + e.blockCount ≤ Config.blocks)) &&
    decide (a.free.Pairwise fun x y => x.start + x.length < y.start) &&
    eachPort fun p => decide (a.charge.get p = (a.table.toList.map fun e => e.chargeFor p).sum)

theorem allocLaw_of_check {a : Allocator} (h : allocCheck a = true) : AllocLaw a := by
  simp only [allocCheck, Bool.and_eq_true, decide_eq_true_eq, eachPort_iff, List.all_eq_true, List.mem_range] at h
  obtain ⟨⟨⟨⟨a, b⟩, c⟩, d⟩, e⟩ := h
  exact ⟨a, b, c, d, e⟩

def entryOwnedCheck (s : State) (i : Fin 32) (e : SurfEntry) : Bool :=
  decide (e.state = .live → (s.sessions.get e.owner).state = .opened) &&
    decide (e.state = .retiring → (s.sessions.get e.owner).state = .opened ∨
      ((s.sessions.get e.owner).state = .closing ∧ (s.sessions.get e.owner).surfacesPending = true)) &&
    decide (e.pendingAbort = true ↔ (e.state ≠ .free ∧ underAbort s i e = true)) &&
    decide (e.state = .retiring → s.alloc.withdrawalOut.get e.owner = true ∨ e.pendingAbort = true)

def marksCheck (s : State) (p : Port) : Bool :=
  decide (s.alloc.withdrawalOut.get p = (s.sessions.get p).withdrawalPending) &&
    decide (s.alloc.reportOwed.get p = (s.sessions.get p).surfacesPending) &&
    decide ((s.sessions.get p).surfacesPending = true → (s.sessions.get p).withdrawalPending = false →
      noRetiring s p = false)

def bandShowsCheck (s : State) (b : Band) : Bool :=
  match b.part with
  | .fill _ => true
  | .surface h x y =>
    (namedSurface s.alloc.table h).any fun e =>
      decide (e.owner = b.key.owner) && decide (x + s.layout.active.timing.hdw ≤ e.width) &&
        decide (y + b.count ≤ e.height) && decide (x % pixelsPerByte e.depth = 0) &&
        decide (grantCovers (grantOf s b.key.owner) e.depth = true) &&
        decide (e.state = .retiring → s.alloc.withdrawalOut.get e.owner = true)

theorem bandShows_of_check {s : State} {b : Band} (h : bandShowsCheck s b = true) : BandShows s b := by
  unfold bandShowsCheck at h
  unfold BandShows
  split
  · exact True.intro
  · rename_i g x y hp
    rw [hp] at h
    simp only [Option.any_eq_true, Bool.and_eq_true, decide_eq_true_eq] at h
    obtain ⟨e, he, ⟨⟨⟨⟨⟨a, b⟩, c⟩, d⟩, f⟩, k⟩⟩ := h
    exact ⟨e, he, a, b, c, d, f, k⟩

def surfaceCheck (s : State) : Bool :=
  (s.alloc.table.toList.all fun e => decide (e.state ≠ .free →
      (8 ≤ e.width ∧ e.width ≤ 2048 ∧ 1 ≤ e.height ∧ e.height ≤ 1024 ∧ e.stride = strideOf e.width e.depth ∧
        e.blockCount = blocksOf e.stride e.height))) &&
    ((List.finRange 32).all fun i => entryOwnedCheck s i (s.alloc.table.get i)) && eachPort (marksCheck s) &&
    s.layout.active.bands.all (bandShowsCheck s)

theorem surfaceLaw_of_check {s : State} (h : surfaceCheck s = true) : SurfaceLaw s := by
  simp only [surfaceCheck, Bool.and_eq_true, eachPort_iff, List.all_eq_true, decide_eq_true_eq] at h
  obtain ⟨⟨⟨a, b⟩, c⟩, d⟩ := h
  refine ⟨a, fun i => ?_, fun p => ?_, fun x hx => bandShows_of_check (d x hx)⟩
  · have hi := b i (List.mem_finRange i)
    simp only [entryOwnedCheck, Bool.and_eq_true, decide_eq_true_eq] at hi
    exact ⟨hi.1.1.1, hi.1.1.2, hi.1.2, hi.2⟩
  · have hp := c p
    simp only [marksCheck, Bool.and_eq_true, decide_eq_true_eq] at hp
    exact ⟨hp.1.1, hp.1.2, hp.2⟩

def jobSurfaceCheck (s : State) (j : Job) (h : Handle) (x y : Nat) : Bool :=
  (namedSurface s.alloc.table h).any fun e =>
    decide (e.owner = j.owner) && decide (j.state ≠ .aborting → e.state = .live) && decide (x + j.w ≤ e.width) &&
      decide (y + j.h ≤ e.height)

theorem jobSurface_of_check {s : State} {j : Job} {h : Handle} {x y : Nat} (hc : jobSurfaceCheck s j h x y = true) :
    JobSurface s j h x y := by
  simp only [jobSurfaceCheck, Option.any_eq_true, Bool.and_eq_true, decide_eq_true_eq] at hc
  obtain ⟨e, he, ⟨⟨⟨a, b⟩, c⟩, d⟩⟩ := hc
  exact ⟨e, he, a, b, c, d⟩

def jobCheck (s : State) (j : Job) : Bool :=
  decide (j.rowsDone < j.h ∧ 1 ≤ j.w) && jobSurfaceCheck s j j.dest j.dx j.dy &&
    (match j.kind with
     | .fill v => decide (v < 2 ^ (depthAt s j.dest).bits)
     | .copy src sx sy => jobSurfaceCheck s j src sx sy && decide (depthAt s src = depthAt s j.dest)) &&
    decide ((s.sessions.get j.owner).state = .opened ∧ j.notify = true ∨
      (s.sessions.get j.owner).state = .closing ∧ j.notify = false ∧ j.state = .aborting) &&
    decide (j.state = .queued → j.rowsDone = 0)

theorem jobOk_of_check {s : State} {j : Job} (h : jobCheck s j = true) : JobOk s j := by
  simp only [jobCheck, Bool.and_eq_true, decide_eq_true_eq] at h
  obtain ⟨⟨⟨⟨a, b⟩, c⟩, d⟩, e⟩ := h
  refine ⟨a, jobSurface_of_check b, ?_, d, e⟩
  unfold JobKindOk
  split
  · rename_i hk; rw [hk] at c; exact of_decide_eq_true c
  · rename_i hk
    rw [hk] at c
    simp only [Bool.and_eq_true, decide_eq_true_eq] at c
    exact ⟨jobSurface_of_check c.1, c.2⟩

def headCheck : List Job → Bool
  | [] => true
  | j :: rest => decide (j.state ≠ .queued) && rest.all fun k => decide (k.state = .queued)

def engineCheck (s : State) : Bool :=
  decide (s.engine.jobs.length ≤ Config.maxJobs) && eachPort (fun p => decide (jobCount s p ≤ Config.maxJobsPerPort)) &&
    decide (s.engine.jobs.map fun j => (j.owner, j.tag)).Nodup && headCheck s.engine.jobs &&
    s.engine.jobs.all (jobCheck s) &&
    decide ((s.engine.jobs ≠ [] ↔ (s.arb.engineRow = true ∨ servesRow s.arb.busy = true)) ∧
      ¬(s.arb.engineRow = true ∧ servesRow s.arb.busy = true)) &&
    s.layout.queue.all fun e =>
      match e with
      | .transaction t => t.awaited.all fun n => s.engine.jobs.any fun j => decide (j.arrival = n ∧ j.owner = t.port)
      | .withdrawal _ => true

theorem engineLaw_of_check {s : State} (h : engineCheck s = true) : EngineLaw s := by
  simp only [engineCheck, Bool.and_eq_true, eachPort_iff, decide_eq_true_eq] at h
  obtain ⟨⟨⟨⟨⟨⟨a, b⟩, c⟩, d⟩, e⟩, f⟩, g⟩ := h
  refine ⟨a, b, c, ?_, fun j hj => jobOk_of_check (List.all_eq_true.1 e j hj), f, fun x hx => ?_⟩
  · cases hj : s.engine.jobs with
    | nil => exact True.intro
    | cons j rest =>
      rw [hj] at d
      simp only [headCheck, Bool.and_eq_true, decide_eq_true_eq, List.all_eq_true] at d
      exact d
  · have hg := List.all_eq_true.1 g x hx
    cases x with
    | withdrawal p => exact True.intro
    | transaction t =>
      simp only [List.all_eq_true, List.any_eq_true, decide_eq_true_eq] at hg
      exact hg

def fetchCheck (s : State) (f : LineFetch) : Bool :=
  decide (f.addr + f.len ≤ Config.storeBytes ∧ f.len = pixelSpan f.depth s.timing.active.hdw)

def fixedCheck (s : State) : Bool :=
  match s.scan with
  | .fixed cs =>
    decide (s.timing.run = .running ∧ s.timing.period = .display ∧ cs.length = s.timing.active.hdw)
  | .none | .awaiting => true

def scanCheck (s : State) : Bool :=
  decide (s.scan = .awaiting ↔ (s.arb.lineFetch.isSome = true ∨ (servedFetch s.arb.busy).isSome = true)) &&
    decide (¬(s.arb.lineFetch.isSome = true ∧ (servedFetch s.arb.busy).isSome = true)) &&
    decide (s.scan = .awaiting → s.timing.run = .running ∧ s.timing.period = .display ∧ s.timing.part ≠ .display) &&
    s.arb.lineFetch.all (fetchCheck s) &&
    ((servedFetch s.arb.busy).all fun f =>
      fetchCheck s f && decide ((servedBytes s.arb.busy).map List.length = some f.len)) &&
    fixedCheck s && decide (s.timing.run = .running → s.timing.period = .display → s.scan ≠ .none) &&
    s.arb.ports.all fun a => decide (a.addr + a.span ≤ Config.storeBytes)

theorem scanLaw_of_check {s : State} (h : scanCheck s = true) : ScanLaw s := by
  simp only [scanCheck, fetchCheck, Bool.and_eq_true, decide_eq_true_eq, Option.all_eq_true, List.all_eq_true] at h
  obtain ⟨⟨⟨⟨⟨⟨⟨a, b⟩, c⟩, d⟩, e⟩, f⟩, g⟩, i⟩ := h
  refine ⟨a, b, c, d, e, fun cs hcs => ?_, g, i⟩
  unfold fixedCheck at f
  rw [hcs] at f
  exact of_decide_eq_true f

/-- The check of every law. -/
def lawfulCheck (s : State) : Bool :=
  linkCheck s && queueCheck s && layoutCheck s && timingCheck s && powerCheck s && paletteCheck s && allocCheck s.alloc &&
    surfaceCheck s && engineCheck s && scanCheck s && Memory.wf s.store

/-- A state that passes the check is lawful. -/
theorem lawful_of_check {s : State} (h : lawfulCheck s = true) : Lawful s := by
  simp only [lawfulCheck, Bool.and_eq_true] at h
  obtain ⟨⟨⟨⟨⟨⟨⟨⟨⟨⟨a, b⟩, c⟩, d⟩, e⟩, f⟩, g⟩, i⟩, j⟩, k⟩, l⟩ := h
  exact ⟨linkLaw_of_check a, queueLaw_of_check b, layoutLaw_of_check c, timingLaw_of_check d, powerLaw_of_check e,
    paletteLaw_of_check f, allocLaw_of_check g, surfaceLaw_of_check i, engineLaw_of_check j, scanLaw_of_check k, l⟩

end Sys2Proof.Machine
end

