-- ==== Sys2Proof/Laws/Requests.lean ====
section
/-! SUPPORT. Notices and requests: the notice block changes its queues alone, and the three ways in which a request can be taken. -/

namespace Sys2Proof.Machine

/-! ### The notice block -/

theorem post_of_not_open {x : Posting} {s : State} (h : (s.sessions.get x.1).state ≠ .opened) : post x s = s := if_neg h

theorem post_of_open {x : Posting} {s : State} (h : (s.sessions.get x.1).state = .opened) :
    post x s = s.setNotices x.1 ((s.notices.get x.1).take x.2) := if_pos h

/-- A posting changes the notice queues and nothing else. -/
theorem post_frame (x : Posting) (s : State) : post x s = { s with notices := (post x s).notices } := by
  unfold post; split <;> rfl

/-- A sequence of postings changes the notice queues and nothing else. -/
theorem deliver_frame (xs : List Posting) : ∀ s : State, deliver xs s = { s with notices := (deliver xs s).notices } := by
  induction xs with
  | nil => intro s; rfl
  | cons x xs ih =>
    intro s
    have h : deliver (x :: xs) s = deliver xs (post x s) := rfl
    rw [h, ih (post x s), post_frame x s]

@[simp] theorem deliver_nil (s : State) : deliver [] s = s := rfl

theorem deliver_cons (x : Posting) (xs : List Posting) (s : State) : deliver (x :: xs) s = deliver xs (post x s) := rfl

theorem deliver_append (xs ys : List Posting) (s : State) : deliver (xs ++ ys) s = deliver ys (deliver xs s) := by
  simp [deliver, List.foldl_append]

/-- Merged postings change the notice queues and the count of draws and nothing else. -/
theorem deliverAny_frame (xs ys zs : List Posting) (s : State) :
    deliverAny xs ys zs s = { s with notices := (deliverAny xs ys zs s).notices, draws := s.draws + 2 } := by
  unfold deliverAny; rw [deliver_frame]

@[simp] theorem post_supv (x : Posting) (s : State) : (post x s).supv = s.supv := by rw [post_frame]
@[simp] theorem deliver_supv (xs : List Posting) (s : State) : (deliver xs s).supv = s.supv := by rw [deliver_frame]
@[simp] theorem deliverAny_supv (xs ys zs : List Posting) (s : State) : (deliverAny xs ys zs s).supv = s.supv := by
  rw [deliverAny_frame]
@[simp] theorem post_preset (x : Posting) (s : State) : (post x s).preset = s.preset := by rw [post_frame]
@[simp] theorem deliver_preset (xs : List Posting) (s : State) : (deliver xs s).preset = s.preset := by rw [deliver_frame]
@[simp] theorem deliverAny_preset (xs ys zs : List Posting) (s : State) : (deliverAny xs ys zs s).preset = s.preset := by
  rw [deliverAny_frame]
@[simp] theorem post_links (x : Posting) (s : State) : (post x s).links = s.links := by rw [post_frame]
@[simp] theorem deliver_links (xs : List Posting) (s : State) : (deliver xs s).links = s.links := by rw [deliver_frame]
@[simp] theorem deliverAny_links (xs ys zs : List Posting) (s : State) : (deliverAny xs ys zs s).links = s.links := by
  rw [deliverAny_frame]
@[simp] theorem post_sessions (x : Posting) (s : State) : (post x s).sessions = s.sessions := by rw [post_frame]
@[simp] theorem deliver_sessions (xs : List Posting) (s : State) : (deliver xs s).sessions = s.sessions := by rw [deliver_frame]
@[simp] theorem deliverAny_sessions (xs ys zs : List Posting) (s : State) : (deliverAny xs ys zs s).sessions = s.sessions := by
  rw [deliverAny_frame]
@[simp] theorem post_layout (x : Posting) (s : State) : (post x s).layout = s.layout := by rw [post_frame]
@[simp] theorem deliver_layout (xs : List Posting) (s : State) : (deliver xs s).layout = s.layout := by rw [deliver_frame]
@[simp] theorem deliverAny_layout (xs ys zs : List Posting) (s : State) : (deliverAny xs ys zs s).layout = s.layout := by
  rw [deliverAny_frame]
@[simp] theorem post_alloc (x : Posting) (s : State) : (post x s).alloc = s.alloc := by rw [post_frame]
@[simp] theorem deliver_alloc (xs : List Posting) (s : State) : (deliver xs s).alloc = s.alloc := by rw [deliver_frame]
@[simp] theorem deliverAny_alloc (xs ys zs : List Posting) (s : State) : (deliverAny xs ys zs s).alloc = s.alloc := by
  rw [deliverAny_frame]
@[simp] theorem post_store (x : Posting) (s : State) : (post x s).store = s.store := by rw [post_frame]
@[simp] theorem deliver_store (xs : List Posting) (s : State) : (deliver xs s).store = s.store := by rw [deliver_frame]
@[simp] theorem deliverAny_store (xs ys zs : List Posting) (s : State) : (deliverAny xs ys zs s).store = s.store := by
  rw [deliverAny_frame]
@[simp] theorem post_arb (x : Posting) (s : State) : (post x s).arb = s.arb := by rw [post_frame]
@[simp] theorem deliver_arb (xs : List Posting) (s : State) : (deliver xs s).arb = s.arb := by rw [deliver_frame]
@[simp] theorem deliverAny_arb (xs ys zs : List Posting) (s : State) : (deliverAny xs ys zs s).arb = s.arb := by
  rw [deliverAny_frame]
@[simp] theorem post_pal (x : Posting) (s : State) : (post x s).pal = s.pal := by rw [post_frame]
@[simp] theorem deliver_pal (xs : List Posting) (s : State) : (deliver xs s).pal = s.pal := by rw [deliver_frame]
@[simp] theorem deliverAny_pal (xs ys zs : List Posting) (s : State) : (deliverAny xs ys zs s).pal = s.pal := by
  rw [deliverAny_frame]
@[simp] theorem post_engine (x : Posting) (s : State) : (post x s).engine = s.engine := by rw [post_frame]
@[simp] theorem deliver_engine (xs : List Posting) (s : State) : (deliver xs s).engine = s.engine := by rw [deliver_frame]
@[simp] theorem deliverAny_engine (xs ys zs : List Posting) (s : State) : (deliverAny xs ys zs s).engine = s.engine := by
  rw [deliverAny_frame]
@[simp] theorem post_timing (x : Posting) (s : State) : (post x s).timing = s.timing := by rw [post_frame]
@[simp] theorem deliver_timing (xs : List Posting) (s : State) : (deliver xs s).timing = s.timing := by rw [deliver_frame]
@[simp] theorem deliverAny_timing (xs ys zs : List Posting) (s : State) : (deliverAny xs ys zs s).timing = s.timing := by
  rw [deliverAny_frame]
@[simp] theorem post_scan (x : Posting) (s : State) : (post x s).scan = s.scan := by rw [post_frame]
@[simp] theorem deliver_scan (xs : List Posting) (s : State) : (deliver xs s).scan = s.scan := by rw [deliver_frame]
@[simp] theorem deliverAny_scan (xs ys zs : List Posting) (s : State) : (deliverAny xs ys zs s).scan = s.scan := by
  rw [deliverAny_frame]
@[simp] theorem post_fresh (x : Posting) (s : State) : (post x s).fresh = s.fresh := by rw [post_frame]
@[simp] theorem deliver_fresh (xs : List Posting) (s : State) : (deliver xs s).fresh = s.fresh := by rw [deliver_frame]
@[simp] theorem deliverAny_fresh (xs ys zs : List Posting) (s : State) : (deliverAny xs ys zs s).fresh = s.fresh := by
  rw [deliverAny_frame]
@[simp] theorem post_power (x : Posting) (s : State) : (post x s).power = s.power := by rw [post_frame]
@[simp] theorem deliver_power (xs : List Posting) (s : State) : (deliver xs s).power = s.power := by rw [deliver_frame]
@[simp] theorem deliverAny_power (xs ys zs : List Posting) (s : State) : (deliverAny xs ys zs s).power = s.power := by
  rw [deliverAny_frame]
@[simp] theorem post_powerOns (x : Posting) (s : State) : (post x s).powerOns = s.powerOns := by rw [post_frame]
@[simp] theorem deliver_powerOns (xs : List Posting) (s : State) : (deliver xs s).powerOns = s.powerOns := by rw [deliver_frame]
@[simp] theorem deliverAny_powerOns (xs ys zs : List Posting) (s : State) : (deliverAny xs ys zs s).powerOns = s.powerOns := by
  rw [deliverAny_frame]
@[simp] theorem post_draws (x : Posting) (s : State) : (post x s).draws = s.draws := by rw [post_frame]
@[simp] theorem deliver_draws (xs : List Posting) (s : State) : (deliver xs s).draws = s.draws := by rw [deliver_frame]
@[simp] theorem post_pending (x : Posting) (s : State) : (post x s).pending = s.pending := by rw [post_frame]
@[simp] theorem deliver_pending (xs : List Posting) (s : State) : (deliver xs s).pending = s.pending := by rw [deliver_frame]
@[simp] theorem deliverAny_pending (xs ys zs : List Posting) (s : State) : (deliverAny xs ys zs s).pending = s.pending := by
  rw [deliverAny_frame]

/-- A posting reaches the queue of its own port alone. -/
theorem post_notices_get (x : Posting) (s : State) (q : Port) :
    (post x s).notices.get q =
      if q = x.1 ∧ (s.sessions.get x.1).state = .opened then (s.notices.get x.1).take x.2 else s.notices.get q := by
  by_cases ho : (s.sessions.get x.1).state = .opened
  · rw [post_of_open ho]
    by_cases hq : q = x.1
    · subst hq; rw [if_pos ⟨rfl, ho⟩]; exact PerPort.get_set_same _ _ _
    · rw [if_neg fun h => hq h.1]; exact PerPort.get_set_ne _ _ hq
  · rw [post_of_not_open ho, if_neg fun h => ho h.2]

theorem interleave_nil_left {α : Type} (turn : Nat → Nat) (i : Nat) (bs : List α) : interleave turn i [] bs = bs := by
  cases bs <;> rfl

theorem interleave_nil_right {α : Type} (turn : Nat → Nat) (i : Nat) (xs : List α) : interleave turn i xs [] = xs := by
  cases xs <;> rfl

/-- Every element of a merge comes from one of the two sequences. -/
theorem mem_interleave {α : Type} {turn : Nat → Nat} {x : α} : ∀ (as : List α) (i : Nat) (bs : List α),
    x ∈ interleave turn i as bs ↔ x ∈ as ∨ x ∈ bs
  | [], i, bs => by rw [interleave_nil_left]; simp
  | a :: as, i, [] => by simp [interleave]
  | a :: as, i, b :: bs => by
    simp only [interleave]
    have h := List.take_append_drop (turn i % ((b :: bs).length + 1)) (b :: bs)
    constructor
    · intro hx
      rcases List.mem_append.1 hx with hx | hx
      · exact Or.inr (List.mem_of_mem_take hx)
      · rcases List.mem_cons.1 hx with rfl | hx
        · exact Or.inl List.mem_cons_self
        · rcases (mem_interleave as (i + 1) _).1 hx with hx | hx
          · exact Or.inl (List.mem_cons_of_mem _ hx)
          · exact Or.inr (List.mem_of_mem_drop hx)
    · rintro (hx | hx)
      · refine List.mem_append.2 (Or.inr ?_)
        rcases List.mem_cons.1 hx with rfl | hx
        · exact List.mem_cons_self
        · exact List.mem_cons_of_mem _ ((mem_interleave as (i + 1) _).2 (Or.inl hx))
      · rw [← h] at hx
        rcases List.mem_append.1 hx with hx | hx
        · exact List.mem_append.2 (Or.inl hx)
        · exact List.mem_append.2 (Or.inr (List.mem_cons_of_mem _ ((mem_interleave as (i + 1) _).2 (Or.inr hx))))

/-- What a port's queue is sent at one event is what the three blocks post to it. -/
theorem mem_mergedPostings {d : Nat} {xs ys zs : List Posting} {p : Port} {x : Posting} :
    x ∈ mergedPostings d xs ys zs p ↔ x.1 = p ∧ (x ∈ xs ∨ x ∈ ys ∨ x ∈ zs) := by
  simp only [mergedPostings, mem_interleave, postingsTo, List.mem_filter, decide_eq_true_eq]
  constructor
  · rintro (⟨h, e⟩ | ⟨h, e⟩ | ⟨h, e⟩) <;> exact ⟨e, by simp [h]⟩
  · rintro ⟨e, h | h | h⟩ <;> simp [h, e]

/-! ### Requests -/

theorem untaken_eq_some {p : Port} {k : Kind} {s : State} {w : Work} :
    untaken p k s = some w ↔ (s.links.get p).work = some w ∧ w.kind = k ∧ w.posted = false := by
  unfold untaken
  split
  · rename_i v hv
    rw [hv]
    constructor
    · intro h
      split at h
      · rename_i hc; cases h; exact ⟨rfl, hc⟩
      · exact absurd h (by simp)
    · rintro ⟨h, hc⟩
      cases h; rw [if_pos hc]
  · rename_i hn; simp [hn]

/-- A request row with no such request in work changes nothing. -/
theorem takeRequest_none {p : Port} {k : Kind} {act : List Byte → State → State} {s : State}
    (h : untaken p k s = none) : takeRequest p k act s = s := by simp [takeRequest, h]

/-- A request that a check of R154 refuses is answered by the session manager. -/
theorem takeRequest_refused {p : Port} {k : Kind} {act : List Byte → State → State} {s : State} {w : Work} {st : Status}
    (h : untaken p k s = some w) (hc : sessionCheck p w s = some st) :
    takeRequest p k act s = fillReply p st [] s := by simp [takeRequest, takeWork, h, hc]

/-- A request that passes the checks is acted on by its owning block. -/
theorem takeRequest_acted {p : Port} {k : Kind} {act : List Byte → State → State} {s : State} {w : Work}
    (h : untaken p k s = some w) (hc : sessionCheck p w s = none) :
    takeRequest p k act s = act w.payload s := by simp [takeRequest, takeWork, h, hc]

/-- The three ways in which a request row can end. -/
theorem takeRequest_cases (p : Port) (k : Kind) (act : List Byte → State → State) (s : State) :
    takeRequest p k act s = s ∨
      (∃ w st, untaken p k s = some w ∧ sessionCheck p w s = some st ∧
        takeRequest p k act s = fillReply p st [] s) ∨
      ∃ w, untaken p k s = some w ∧ sessionCheck p w s = none ∧ takeRequest p k act s = act w.payload s := by
  cases h : untaken p k s with
  | none => exact Or.inl (takeRequest_none h)
  | some w =>
    cases hc : sessionCheck p w s with
    | some st => exact Or.inr (Or.inl ⟨w, st, rfl, hc, takeRequest_refused h hc⟩)
    | none => exact Or.inr (Or.inr ⟨w, rfl, hc, takeRequest_acted h hc⟩)

/-- The checks of R154 pass for an OPEN session, its own epoch, and a payload whose length the kind allows. -/
theorem sessionCheck_none {p : Port} {w : Work} {s : State} (ho : (s.sessions.get p).state = .opened)
    (he : w.epoch = (s.sessions.get p).epoch) (hs : isSupervisorKind w.kind = true → p = s.supv)
    (hl : w.kind.lengthOk w.payload.length = true) : sessionCheck p w s = none := by
  simp only [sessionCheck, ho, he, hl]
  by_cases h : isSupervisorKind w.kind = true
  · simp [hs h]
  · simp [h]

/-- The reply of the request in work, field by field (R152). -/
theorem fillReply_link (p : Port) (st : Status) (payload : List Byte) (s : State) :
    (fillReply p st payload s).links =
      s.links.set p
        { s.links.get p with
          state := .replyReady
          slot :=
            some
              { status := st, seq := (s.links.get p).execSeq, overrun := (s.links.get p).overrun,
                attention := attentionPending s p, payload := payload }
          overrun := false
          work := none } := rfl

end Sys2Proof.Machine
end

