-- ==== Sys2Proof/Laws/Frames.lean ====
section
/-! SUPPORT. What each shared operation can change: the fields it names, and nothing else. -/

namespace Sys2Proof.Machine

/-! ### The surface allocator -/

theorem freeSurface_frame (i : Fin 32) (s : State) : freeSurface i s = { s with alloc := (freeSurface i s).alloc } := rfl

theorem freeFold_frame (cond : State → Fin 32 → Bool) (is : List (Fin 32)) : ∀ s : State,
    is.foldl (fun t i => if cond t i then freeSurface i t else t) s =
      { s with alloc := (is.foldl (fun t i => if cond t i then freeSurface i t else t) s).alloc } := by
  induction is with
  | nil => intro s; rfl
  | cons i is ih =>
    intro s
    simp only [List.foldl_cons]
    rw [ih]
    split <;> rfl

theorem freeWhere_frame (cond : SurfEntry → Bool) (s : State) :
    freeWhere cond s = { s with alloc := (freeWhere cond s).alloc } :=
  freeFold_frame (fun t i => cond (t.alloc.table.get i)) _ s

theorem surfacesReport_frame (p : Port) (s : State) :
    surfacesReport p s =
      { s with alloc := (surfacesReport p s).alloc, sessions := (surfacesReport p s).sessions } := by
  unfold surfacesReport; split <;> rfl

theorem withdrawalReport_frame (p : Port) (s : State) :
    withdrawalReport p s =
      { s with alloc := (withdrawalReport p s).alloc, sessions := (withdrawalReport p s).sessions } := by
  unfold withdrawalReport; rw [surfacesReport_frame, freeWhere_frame]

theorem setAbortFlags_frame (flag : Bool) (hs : List Handle) : ∀ s : State,
    setAbortFlags flag hs s = { s with alloc := (setAbortFlags flag hs s).alloc } := by
  induction hs with
  | nil => intro s; rfl
  | cons h hs ih =>
    intro s
    have e : setAbortFlags flag (h :: hs) s = setAbortFlags flag hs
        (match namedSurface s.alloc.table h with
         | some e => s.setEntry h.index { e with pendingAbort := flag }
         | none => s) := rfl
    rw [e, ih]
    split <;> rfl

theorem jobStopReport_frame (p : Port) (hs : List Handle) (s : State) :
    jobStopReport p hs s =
      { s with alloc := (jobStopReport p hs s).alloc, sessions := (jobStopReport p hs s).sessions } := by
  unfold jobStopReport
  rw [surfacesReport_frame, freeFold_frame (fun t i => freedAtStop t hs i), setAbortFlags_frame]

/-! ### The palette and the layout controller -/

theorem publish_frame (p : Port) (s : State) : publish p s = { s with pal := (publish p s).pal } := by
  unfold publish; dsimp only; split <;> rfl

theorem releaseGrant_frame (p : Port) (s : State) : releaseGrant p s = { s with pal := (releaseGrant p s).pal } := rfl

theorem handTiming_frame (es : List Edit) (t : Timing) (s : State) :
    handTiming es t s = { s with timing := (handTiming es t s).timing } := by
  unfold handTiming; split <;> rfl

theorem acceptCopy_frame (t : Transaction) (v : Tentative) (s : State) :
    (acceptCopy t v s).1 =
      { s with
        layout := { s.layout with active := v.copy }
        timing := (acceptCopy t v s).1.timing, pal := (acceptCopy t v s).1.pal, fresh := (acceptCopy t v s).1.fresh } := by
  unfold acceptCopy; dsimp only; rw [publish_frame, handTiming_frame]

theorem applyTransaction_frame (t : Transaction) (s : State) :
    (applyTransaction t s).1 =
      { s with
        layout := (applyTransaction t s).1.layout, timing := (applyTransaction t s).1.timing
        pal := (applyTransaction t s).1.pal, fresh := (applyTransaction t s).1.fresh } := by
  unfold applyTransaction; dsimp only
  split
  · rfl
  · split
    · rfl
    · rw [acceptCopy_frame]; rfl

theorem applyWithdrawal_frame (p : Port) (s : State) :
    applyWithdrawal p s =
      { s with
        layout := { s.layout with
          active := { s.layout.active with
            bands := s.layout.active.bands.filter fun b => decide (b.key.owner ≠ p) } }
        fresh := { s.fresh with records := s.fresh.records.filter fun r => decide (r.key.owner ≠ p) }
        pal := (applyWithdrawal p s).pal, alloc := (applyWithdrawal p s).alloc
        sessions := (applyWithdrawal p s).sessions } := by
  unfold applyWithdrawal; dsimp only; rw [withdrawalReport_frame]; rfl

/-- What the application of queue entries can change: the active layout and the records, pending parameters, the palette, freshness, the
allocator and the session records; the submit queue and the staging areas are as they were. -/
theorem applyEntries_frame (es : List QueueEntry) : ∀ s : State,
    (applyEntries es s).1 =
      { s with
        layout := { s.layout with
          active := (applyEntries es s).1.layout.active, record := (applyEntries es s).1.layout.record }
        timing := { s.timing with pending := (applyEntries es s).1.timing.pending }
        pal := (applyEntries es s).1.pal, fresh := (applyEntries es s).1.fresh
        alloc := (applyEntries es s).1.alloc, sessions := (applyEntries es s).1.sessions } := by
  induction es with
  | nil => intro s; rfl
  | cons e es ih =>
    intro s
    simp only [applyEntries]
    split
    · exact ih s
    · dsimp only
      have h1 : (applyEntry e s).1 =
          { s with
            layout := { s.layout with
              active := (applyEntry e s).1.layout.active, record := (applyEntry e s).1.layout.record }
            timing := { s.timing with pending := (applyEntry e s).1.timing.pending }
            pal := (applyEntry e s).1.pal, fresh := (applyEntry e s).1.fresh
            alloc := (applyEntry e s).1.alloc, sessions := (applyEntry e s).1.sessions } := by
        cases e with
        | withdrawal p => simp only [applyEntry]; rw [applyWithdrawal_frame]
        | transaction t =>
          simp only [applyEntry, applyTransaction]
          split
          · rfl
          · split
            · rfl
            · unfold acceptCopy handTiming; dsimp only
              rw [publish_frame]
              split <;> rfl
      rw [ih]
      generalize applyEntry e s = r at h1 ⊢
      obtain ⟨r1, r2⟩ := r
      dsimp only at h1 ⊢
      rw [h1]

/-- A pass leaves the held entries in the queue, in their order (R28). -/
theorem applicationPass_queue (s : State) :
    (applicationPass s).1.layout.queue = s.layout.queue.filter QueueEntry.held := by
  unfold applicationPass; rw [applyEntries_frame]; rfl

theorem applyIfStopped_frame (s : State) :
    applyIfStopped s =
      { s with
        layout := (applyIfStopped s).layout, timing := { s.timing with pending := (applyIfStopped s).timing.pending }
        pal := (applyIfStopped s).pal, fresh := (applyIfStopped s).fresh, alloc := (applyIfStopped s).alloc
        sessions := (applyIfStopped s).sessions, notices := (applyIfStopped s).notices } := by
  unfold applyIfStopped
  split
  · dsimp only; rw [deliver_frame]; unfold applicationPass; rw [applyEntries_frame]; rfl
  · rfl

/-- The report of a finished job leaves every entry of another port as it is (R102, R103). -/
theorem dropAwaited_of_ne {p : Port} {n : BitVec 16} {e : QueueEntry} (h : e.port ≠ p) : e.dropAwaited p n = e := by
  cases e with
  | withdrawal q => rfl
  | transaction t =>
    have h : t.port ≠ p := h
    simp [QueueEntry.dropAwaited, h]

@[simp] theorem dropAwaited_port (p : Port) (n : BitVec 16) (e : QueueEntry) : (e.dropAwaited p n).port = e.port := by
  cases e <;> rfl

/-- A pass that finds held entries alone changes nothing and posts nothing (R28, R46). -/
theorem applyEntries_of_held {es : List QueueEntry} (s : State) (h : ∀ e ∈ es, e.held = true) :
    applyEntries es s = (s, []) := by
  induction es with
  | nil => rfl
  | cons e es ih =>
    have he : e.held = true := h e (List.mem_cons_self ..)
    simp only [applyEntries, he, if_true]
    exact ih fun x hx => h x (List.mem_cons_of_mem _ hx)

/-- While held entries alone stand in the queue, an arrival brings no application, whether timing runs or not (R45). -/
theorem applyIfStopped_of_held {s : State} (h : ∀ e ∈ s.layout.queue, e.held = true) : applyIfStopped s = s := by
  have hf : s.layout.queue.filter QueueEntry.held = s.layout.queue := List.filter_eq_self.2 h
  unfold applyIfStopped
  split
  · simp only [applicationPass, applyEntries_of_held _ h, hf]
    rfl
  · rfl

/-- While timing runs nothing is applied on arrival (R29). -/
theorem applyIfStopped_running {s : State} (h : s.timing.run = .running) : applyIfStopped s = s := by
  simp [applyIfStopped, timingStopped, h]

theorem jobFinished_running {s : State} (p : Port) (n : BitVec 16) (h : s.timing.run = .running) :
    jobFinished p n s = s.setQueue (s.layout.queue.map (QueueEntry.dropAwaited p n)) := applyIfStopped_running h

theorem jobFinished_frame (p : Port) (n : BitVec 16) (s : State) :
    jobFinished p n s =
      { s with
        layout := (jobFinished p n s).layout, timing := { s.timing with pending := (jobFinished p n s).timing.pending }
        pal := (jobFinished p n s).pal, fresh := (jobFinished p n s).fresh, alloc := (jobFinished p n s).alloc
        sessions := (jobFinished p n s).sessions, notices := (jobFinished p n s).notices } := by
  unfold jobFinished; rw [applyIfStopped_frame]; rfl

/-! ### The copy engine -/

theorem startNextJob_frame (s : State) :
    startNextJob s = { s with engine := (startNextJob s).engine, arb := (startNextJob s).arb } := by
  unfold startNextJob
  split
  · rfl
  · split <;> rfl

theorem beginAbort_frame (j : Job) (s : State) :
    beginAbort j s = { s with engine := (beginAbort j s).engine, alloc := (beginAbort j s).alloc } := by
  unfold beginAbort
  split
  · rw [setAbortFlags_frame]; rfl
  · rfl
  · rfl

/-! ### Scan-out, the timing generator and the power sequencer -/

theorem sourceLine_frame (n : Nat) (s : State) :
    sourceLine n s =
      { s with scan := (sourceLine n s).scan, arb := { s.arb with lineFetch := (sourceLine n s).arb.lineFetch } } := by
  unfold sourceLine
  split
  · rfl
  · split
    · rfl
    · split <;> rfl

theorem beginFrame_frame (s : State) :
    (beginFrame s).1 =
      { s with
        timing := { s.timing.takePending with period := .display, line := 0, part := .sync }
        fresh := (beginFrame s).1.fresh, scan := (beginFrame s).1.scan
        arb := { s.arb with lineFetch := (beginFrame s).1.arb.lineFetch } } := by
  unfold beginFrame; dsimp only; rw [sourceLine_frame]

theorem startRequest_running {s : State} (h : s.timing.run = .running) : startRequest s = (s, []) := by
  simp [startRequest, h]

theorem startRequest_frame (s : State) :
    (startRequest s).1 =
      { s with
        timing := (startRequest s).1.timing, fresh := (startRequest s).1.fresh, scan := (startRequest s).1.scan
        arb := { s.arb with lineFetch := (startRequest s).1.arb.lineFetch } } := by
  unfold startRequest
  split
  · rfl
  · rw [beginFrame_frame]

theorem stopRequest_frame (s : State) :
    stopRequest s = { s with timing := { s.timing with stopPending := (stopRequest s).timing.stopPending } } := by
  unfold stopRequest; split <;> rfl

/-- What an event at the sequencer changes before its notices and its start request go out. -/
def PowerStep.Frame (s : State) (x : PowerStep) : Prop :=
  x.state = { s with power := x.state.power, timing := { s.timing with stopPending := x.state.timing.stopPending } }

theorem demandChange_frame (before : Bool) (s : State) : PowerStep.Frame s (demandChange before s) := by
  unfold demandChange
  split
  · rfl
  · split
    · unfold demandAppears
      split
      · rfl
      · split <;> rfl
      · rfl
      · rfl
      · rfl
    · unfold demandLost
      split
      · split
        · rfl
        · unfold requestStop PowerStep.none PowerStep.Frame; dsimp only; rw [stopRequest_frame]
      · rfl
      · rfl
      · rfl
      · rfl

theorem powerVblank_frame (s : State) : PowerStep.Frame s (powerVblank s) := by
  unfold powerVblank
  split
  · split
    · rfl
    · split <;> rfl
  · split
    · rfl
    · split <;> rfl
  · split
    · rfl
    · split
      · unfold requestStop PowerStep.none PowerStep.Frame; dsimp only; rw [stopRequest_frame]; rfl
      · rfl
  · rfl
  · rfl

theorem powerStopped_frame (s : State) : PowerStep.Frame s (powerStopped s) := by
  unfold powerStopped; dsimp only; split <;> rfl

theorem powerDeviceReset_frame (s : State) : PowerStep.Frame s (powerDeviceReset s) := by
  unfold powerDeviceReset; dsimp only
  split
  · rfl
  · rfl
  · rfl
  · split <;> rfl
  · split <;> rfl

theorem finishPower_frame (ahead : List Posting) (x : PowerStep) :
    finishPower ahead x =
      { x.state with
        timing := (finishPower ahead x).timing, fresh := (finishPower ahead x).fresh
        scan := (finishPower ahead x).scan
        arb := { x.state.arb with lineFetch := (finishPower ahead x).arb.lineFetch }
        notices := (finishPower ahead x).notices, draws := x.state.draws + 2 } := by
  unfold finishPower
  split
  · dsimp only; rw [deliverAny_frame, startRequest_frame]
  · rw [deliverAny_frame]

/-! ### Sessions and links -/

theorem discardAccess_frame (a : Bool) (p : Port) (s : State) :
    discardAccess a p s =
      { s with
        links := (discardAccess a p s).links
        arb := { s.arb with ports := s.arb.ports.filter fun x => decide (x.port ≠ p) } } := by
  unfold discardAccess; dsimp only
  split
  · split <;> rfl
  · rfl

/-- A discarded access touches no other port's link. -/
theorem discardAccess_links_ne (a : Bool) {p q : Port} (s : State) (h : q ≠ p) :
    (discardAccess a p s).links.get q = s.links.get q := by
  unfold discardAccess; dsimp only
  split
  · split
    · exact PerPort.get_set_ne _ _ h
    · rfl
  · rfl

theorem resetLink_frame (p : Port) (s : State) :
    resetLink p s =
      { s with links := (resetLink p s).links, arb := { s.arb with busy := (resetLink p s).arb.busy } } := by
  unfold resetLink; dsimp only
  split
  · split <;> rfl
  · rfl
  · rfl
  · rfl

/-- A port reset at the link leaves its link READY with nothing in it (R156). -/
theorem resetLink_links (p : Port) (s : State) :
    (resetLink p s).links =
      s.links.set p
        { s.links.get p with
          state := .ready, slot := none, overrun := false, execSeq := 0#8, work := none, window := none, progress := 0 } := by
  unfold resetLink; dsimp only
  split
  · split <;> rfl
  · rfl
  · rfl
  · rfl

/-- At the end of a fetch window no window is open, the fetch progress is 0 and CSn is high (R147, R153). -/
theorem endFetch_closes (w : FetchWindow) (l : Link) :
    (endFetch w l).window = none ∧ (endFetch w l).progress = 0 ∧ (endFetch w l).csLow = false := by
  unfold endFetch; dsimp only
  split <;> exact ⟨rfl, rfl, rfl⟩

/-- The end of a fetch window changes the state, the slot, the window, the fetch progress and the CSn level of its link and nothing
else (R153). -/
theorem endFetch_frame (w : FetchWindow) (l : Link) :
    endFetch w l =
      { l with
        state := (endFetch w l).state, slot := (endFetch w l).slot, window := none, progress := 0, csLow := false } := by
  unfold endFetch; dsimp only
  split <;> rfl

/-- SDO is driven exactly while CSn is low and RSTn is high (R147, R156, R165). -/
theorem sdoDriven_iff (s : State) (p : Port) :
    sdoDriven s p = true ↔ (s.links.get p).csLow = true ∧ (s.links.get p).rstLow = false := by
  simp [sdoDriven, sdoPin, Link.pins]

end Sys2Proof.Machine
end

