-- ==== Sys2Proof/Laws/Store.lean ====
section
/-! SUPPORT. The frame store: what a store leaves at every address, and that every operation keeps the canonical form. -/

namespace Sys2Proof.Machine

/-- A store changes what is read at its own address alone. -/
theorem Memory.find?_store (m : Memory) (a : Nat) (v : Byte) (b : Nat) :
    Memory.find? (Memory.store m a v) b = if b = a then some v else Memory.find? m b := by
  induction m with
  | nil => simp only [Memory.store, Memory.find?]
  | cons c rest ih =>
    obtain ⟨k, x⟩ := c
    simp only [Memory.store]
    split
    · simp only [Memory.find?]
    · split
      · rename_i h
        subst h
        simp only [Memory.find?]
        split <;> rfl
      · rename_i hlt hne
        simp only [Memory.find?, ih]
        split
        · rename_i hb
          have : ¬ b = a := fun h => hne (h.symm.trans hb)
          rw [if_neg this]
        · rfl

/-- A run stores its bytes at its own addresses and changes nothing elsewhere. -/
theorem Memory.find?_storeRun (vs : List Byte) : ∀ (m : Memory) (a b : Nat),
    Memory.find? (Memory.storeRun m a vs) b =
      if a ≤ b ∧ b < a + vs.length then some (vs.getD (b - a) 0#8) else Memory.find? m b := by
  induction vs with
  | nil =>
    intro m a b
    have h : ¬(a ≤ b ∧ b < a + ([] : List Byte).length) := by simp
    rw [if_neg h]; rfl
  | cons v vs ih =>
    intro m a b
    simp only [Memory.storeRun, ih, Memory.find?_store, List.length_cons]
    by_cases hb : b = a
    · subst hb
      have h1 : ¬(b + 1 ≤ b ∧ b < b + 1 + vs.length) := by omega
      have h2 : b ≤ b ∧ b < b + (vs.length + 1) := by omega
      rw [if_neg h1, if_pos rfl, if_pos h2, Nat.sub_self, List.getD_cons_zero]
    · by_cases h : a + 1 ≤ b ∧ b < a + 1 + vs.length
      · have h2 : a ≤ b ∧ b < a + (vs.length + 1) := by omega
        have h3 : b - a = (b - (a + 1)) + 1 := by omega
        rw [if_pos h, if_pos h2, h3, List.getD_cons_succ]
      · have h2 : ¬(a ≤ b ∧ b < a + (vs.length + 1)) := by omega
        rw [if_neg h, if_neg hb, if_neg h2]

theorem Memory.rising_mono {m : Memory} {n k : Nat} (h : Memory.rising n m = true) (hk : k ≤ n) :
    Memory.rising k m = true := by
  cases m with
  | nil => rfl
  | cons c rest =>
    obtain ⟨a, x⟩ := c
    simp only [Memory.rising, Bool.and_eq_true, decide_eq_true_eq] at h ⊢
    exact ⟨Nat.le_trans hk h.1, h.2⟩

/-- A store keeps the addresses strictly rising. -/
theorem Memory.rising_store (m : Memory) (a : Nat) (v : Byte) : ∀ n, Memory.rising n m = true → n ≤ a →
    Memory.rising n (Memory.store m a v) = true := by
  induction m with
  | nil => intro n _ h; simp [Memory.store, Memory.rising, h]
  | cons c rest ih =>
    obtain ⟨k, x⟩ := c
    intro n hr hn
    simp only [Memory.rising, Bool.and_eq_true, decide_eq_true_eq] at hr
    simp only [Memory.store]
    split
    · rename_i hlt
      simp only [Memory.rising, Bool.and_eq_true, decide_eq_true_eq]
      exact ⟨hn, hlt, hr.2⟩
    · split
      · rename_i h
        subst h
        simp only [Memory.rising, Bool.and_eq_true, decide_eq_true_eq]
        exact ⟨hn, hr.2⟩
      · simp only [Memory.rising, Bool.and_eq_true, decide_eq_true_eq]
        exact ⟨hr.1, ih _ hr.2 (by omega)⟩

theorem Memory.mem_store {m : Memory} {a : Nat} {v : Byte} {c : Host.Cell} (h : c ∈ Memory.store m a v) :
    c = (a, v) ∨ c ∈ m := by
  induction m with
  | nil => exact Or.inl (by simpa [Memory.store] using h)
  | cons d rest ih =>
    obtain ⟨k, x⟩ := d
    simp only [Memory.store] at h
    split at h
    · simpa using h
    · split at h
      · rcases List.mem_cons.1 h with h | h
        · exact Or.inl h
        · exact Or.inr (List.mem_cons_of_mem _ h)
      · rcases List.mem_cons.1 h with h | h
        · exact Or.inr (h ▸ List.mem_cons_self)
        · rcases ih h with h | h
          · exact Or.inl h
          · exact Or.inr (List.mem_cons_of_mem _ h)

/-- A store of a byte that exists keeps the canonical form. -/
theorem Memory.wf_store {m : Memory} {a : Nat} {v : Byte} (h : Memory.wf m = true) (ha : a < Config.storeBytes) :
    Memory.wf (Memory.store m a v) = true := by
  simp only [Memory.wf, Bool.and_eq_true, List.all_eq_true, decide_eq_true_eq] at h ⊢
  refine ⟨Memory.rising_store m a v 0 h.1 (Nat.zero_le _), fun c hc => ?_⟩
  rcases Memory.mem_store hc with rfl | hc
  · exact ha
  · exact h.2 c hc

/-- A run that lies in the frame store keeps the canonical form. -/
theorem Memory.wf_storeRun : ∀ (vs : List Byte) (m : Memory) (a : Nat), Memory.wf m = true →
    a + vs.length ≤ Config.storeBytes → Memory.wf (Memory.storeRun m a vs) = true
  | [], _, _, h, _ => h
  | v :: vs, m, a, h, hl => by
    simp only [List.length_cons] at hl
    exact Memory.wf_storeRun vs _ (a + 1) (Memory.wf_store h (by omega)) (by omega)

theorem Memory.wf_nil : Memory.wf [] = true := rfl

/-- The bytes of two states agree where their stores and their numbers of power-ons do. -/
theorem State.byteAt_congr {s t : State} {a b : Nat} (hm : Memory.find? s.store a = Memory.find? t.store b)
    (hp : Config.unwrittenByte s.powerOns a = Config.unwrittenByte t.powerOns b) : s.byteAt a = t.byteAt b := by
  simp only [State.byteAt, hm, hp]

/-- What every byte reads after a run is stored. -/
theorem State.byteAt_storeRun {s t : State} {a : Nat} {vs : List Byte} (hs : t.store = Memory.storeRun s.store a vs)
    (hp : t.powerOns = s.powerOns) (b : Nat) :
    t.byteAt b = if a ≤ b ∧ b < a + vs.length then vs.getD (b - a) 0#8 else s.byteAt b := by
  simp only [State.byteAt, hs, hp, Memory.find?_storeRun]
  by_cases h : a ≤ b ∧ b < a + vs.length
  · simp only [if_pos h]
  · simp only [if_neg h]

theorem State.length_bytesAt (s : State) (a n : Nat) : (s.bytesAt a n).length = n := by
  simp [State.bytesAt]

theorem State.getD_bytesAt (s : State) (a n i : Nat) (h : i < n) : (s.bytesAt a n).getD i 0#8 = s.byteAt (a + i) := by
  simp [State.bytesAt, List.getD_eq_getElem?_getD, h]

theorem runInStore_iff {a n : Nat} : runInStore a n = true ↔ a + n ≤ Config.storeBytes := by
  simp [runInStore]

end Sys2Proof.Machine
end

