-- ==== Sys2Proof/Laws/Tables.lean ====
section
/-! SUPPORT. The tables and lists the blocks keep: handles, the submit queue, the band list, free extents, the palette and the job queue. -/

namespace Sys2Proof.Machine

/-! ### Handles (R50) -/

theorem namedSurface_eq_some {t : Vector SurfEntry 32} {h : Handle} {e : SurfEntry} :
    namedSurface t h = some e ↔ e = t.get h.index ∧ e.state ≠ .free ∧ e.gen = h.gen := by
  unfold namedSurface; dsimp only
  constructor
  · intro hs
    split at hs
    · rename_i hc; cases hs; exact ⟨rfl, hc⟩
    · exact absurd hs (by simp)
  · rintro ⟨rfl, hc⟩; rw [if_pos hc]

theorem liveSurface_eq_some {t : Vector SurfEntry 32} {h : Handle} {e : SurfEntry} :
    liveSurface t h = some e ↔ e = t.get h.index ∧ e.state = .live ∧ e.gen = h.gen := by
  unfold liveSurface; dsimp only
  constructor
  · intro hs
    split at hs
    · rename_i hc; cases hs; exact ⟨rfl, hc⟩
    · exact absurd hs (by simp)
  · rintro ⟨rfl, hc⟩; rw [if_pos hc]

theorem ownLiveSurface_eq_some {s : State} {p : Port} {o : Option Handle} {h : Handle} {e : SurfEntry} :
    ownLiveSurface s p o = some (h, e) ↔
      o = some h ∧ e = s.alloc.table.get h.index ∧ e.state = .live ∧ e.gen = h.gen ∧ e.owner = p := by
  cases o with
  | none => simp [ownLiveSurface]
  | some g =>
    simp only [ownLiveSurface]
    constructor
    · intro hs
      split at hs
      · rename_i f hf
        obtain ⟨rfl, hl, hg⟩ := liveSurface_eq_some.1 hf
        split at hs
        · rename_i ho; cases hs; exact ⟨rfl, rfl, hl, hg, ho⟩
        · exact absurd hs (by simp)
      · exact absurd hs (by simp)
    · rintro ⟨hg, rfl, hl, hgen, ho⟩
      cases hg
      rw [liveSurface_eq_some.2 ⟨rfl, hl, hgen⟩]
      simp [ho]

/-! ### The submit queue (R26) -/

theorem findTransaction_eq_none {p : Port} {q : List QueueEntry} :
    findTransaction p q = none ↔ ∀ t, QueueEntry.transaction t ∈ q → t.port ≠ p := by
  induction q with
  | nil => simp [findTransaction]
  | cons e q ih =>
    cases e with
    | withdrawal r => simp [findTransaction, ih]
    | transaction t =>
      simp only [findTransaction]
      split
      · rename_i h; simp [h]
      · rename_i h; simp [ih, h]

theorem hasTransaction_iff {s : State} {p : Port} :
    hasTransaction s p = true ↔ ∃ t, QueueEntry.transaction t ∈ s.layout.queue ∧ t.port = p := by
  unfold hasTransaction
  cases h : findTransaction p s.layout.queue with
  | none =>
    rw [findTransaction_eq_none] at h
    simp only [Option.isSome_none, Bool.false_eq_true, false_iff, not_exists, not_and]
    exact h
  | some t =>
    simp only [Option.isSome_some, true_iff]
    by_contra hn
    have : findTransaction p s.layout.queue = none := findTransaction_eq_none.2 fun t ht hp => hn ⟨t, ht, hp⟩
    rw [this] at h; exact absurd h (by simp)

/-! ### The band list (R3, R4) -/

theorem mem_insertBand {b x : Band} {bs : List Band} : x ∈ insertBand b bs ↔ x = b ∨ x ∈ bs := by
  induction bs with
  | nil => simp [insertBand]
  | cons c bs ih =>
    simp only [insertBand]
    split
    · simp
    · simp only [List.mem_cons, ih]
      constructor
      · rintro (h | h | h) <;> simp [h]
      · rintro (h | h | h) <;> simp [h]

theorem mem_removeBand {k : BandKey} {x : Band} {bs : List Band} : x ∈ removeBand k bs ↔ x ∈ bs ∧ x.key ≠ k := by
  simp [removeBand]

theorem findBand_eq_none {k : BandKey} {bs : List Band} : findBand k bs = none ↔ ∀ b ∈ bs, b.key ≠ k := by
  simp [findBand]

theorem findBand_some {k : BandKey} {bs : List Band} {b : Band} (h : findBand k bs = some b) : b ∈ bs ∧ b.key = k := by
  refine ⟨List.mem_of_find?_eq_some h, ?_⟩
  simpa using List.find?_some h

/-! ### Free extents (R52, R55) -/

/-- First fit: the extents ahead of the one taken are too short, and it loses the run. -/
theorem takeRun_eq_some {n a : Nat} : ∀ {fs fs' : List Extent}, takeRun n fs = some (a, fs') →
    ∃ ahead x behind, fs = ahead ++ x :: behind ∧ (∀ y ∈ ahead, y.length < n) ∧ n ≤ x.length ∧ a = x.start ∧
      fs' = ahead ++
        (if x.length = n then behind else { start := x.start + n, length := x.length - n } :: behind)
  | [], _, h => by simp [takeRun] at h
  | x :: rest, fs', h => by
    simp only [takeRun] at h
    split at h
    · rename_i hn
      cases h
      exact ⟨[], x, rest, rfl, by simp, hn, rfl, rfl⟩
    · rename_i hn
      split at h
      · rename_i a' rest' hr
        cases h
        obtain ⟨ahead, y, behind, rfl, hs, hy, ha, hf⟩ := takeRun_eq_some hr
        refine ⟨x :: ahead, y, behind, rfl, ?_, hy, ha, by rw [hf]; rfl⟩
        intro z hz
        rcases List.mem_cons.1 hz with rfl | hz
        · omega
        · exact hs z hz
      · exact absurd h (by simp)

theorem takeRun_eq_none {n : Nat} {fs : List Extent} : takeRun n fs = none ↔ ∀ x ∈ fs, x.length < n := by
  induction fs with
  | nil => simp [takeRun]
  | cons x rest ih =>
    simp only [takeRun]
    split
    · rename_i h
      constructor
      · intro hn; exact absurd hn (by simp)
      · intro hall; exact absurd (hall x List.mem_cons_self) (by omega)
    · rename_i h
      cases hr : takeRun n rest with
      | some r =>
        obtain ⟨a, rest'⟩ := r
        simp only [reduceCtorEq, false_iff]
        intro hall
        have := ih.2 fun y hy => hall y (List.mem_cons_of_mem _ hy)
        rw [this] at hr; exact absurd hr (by simp)
      | none =>
        simp only [true_iff]
        intro y hy
        rcases List.mem_cons.1 hy with rfl | hy
        · omega
        · exact ih.1 hr y hy

/-! ### The palette (R74) -/

theorem mapRange_fold (base size : Nat) (f : Nat → Colour) (j : Fin 256) :
    ∀ (is : List (Fin 256)) (a : Vector Colour 256),
      (is.foldl
        (fun v i => if base ≤ i.val ∧ i.val < base + size then v.set i.val (f i.val) i.isLt else v) a).get j =
        if j ∈ is ∧ base ≤ j.val ∧ j.val < base + size then f j.val else a.get j
  | [], a => by simp
  | i :: is, a => by
    simp only [List.foldl_cons]
    rw [mapRange_fold base size f j is]
    by_cases hr : base ≤ j.val ∧ j.val < base + size
    · by_cases hm : j ∈ is
      · simp [hm, hr]
      · by_cases hj : j = i
        · subst hj; simp [hm, hr, Vector.get_eq_getElem]
        · have hne : i.val ≠ j.val := fun h => hj (Fin.ext h.symm)
          have hn : ¬(j ∈ is ∧ base ≤ j.val ∧ j.val < base + size) := fun h => hm h.1
          have hn' : ¬(j ∈ i :: is ∧ base ≤ j.val ∧ j.val < base + size) := by simp [hm, hj]
          rw [if_neg hn, if_neg hn']
          split
          · simp [Vector.get_eq_getElem, hne]
          · rfl
    · simp only [hr, and_false, if_false]
      split
      · rename_i hi
        have hne : i.val ≠ j.val := fun h => hr (h ▸ hi)
        simp [Vector.get_eq_getElem, hne]
      · rfl

/-- The entries of the range are replaced, and no other. -/
theorem mapRange_get (base size : Nat) (f : Nat → Colour) (a : Vector Colour 256) (j : Fin 256) :
    (mapRange base size f a).get j = if base ≤ j.val ∧ j.val < base + size then f j.val else a.get j := by
  unfold mapRange
  rw [mapRange_fold]
  simp

theorem entryAt_get (a : Vector Colour 256) (j : Fin 256) : entryAt a j.val = a.get j := by
  simp [entryAt, List.getD_eq_getElem?_getD, Vector.get_eq_getElem]

/-! ### The job queue (R89) -/

theorem removeJob_head (j : Job) (js : List Job) : removeJob j (j :: js) = js := by simp [removeJob]

theorem replaceJob_head (j k : Job) (js : List Job) : replaceJob j k (j :: js) = k :: js := by simp [replaceJob]

theorem runningJob_head {j : Job} {js : List Job} (h : j.state ≠ .queued) : runningJob (j :: js) = some j := by
  simp [runningJob, h]

theorem runningJob_queued {js : List Job} (h : ∀ j ∈ js, j.state = .queued) : runningJob js = none := by
  simpa [runningJob] using h

theorem mem_removeJob {j k : Job} {js : List Job} (h : k ∈ removeJob j js) : k ∈ js := by
  induction js with
  | nil => simp [removeJob] at h
  | cons x js ih =>
    simp only [removeJob] at h
    split at h
    · exact List.mem_cons_of_mem _ h
    · rcases List.mem_cons.1 h with rfl | h
      · exact List.mem_cons_self
      · exact List.mem_cons_of_mem _ (ih h)

end Sys2Proof.Machine
end

