-- ==== Sys2Proof/WellFormed.lean ====
section
/-! DEFINITION. Well-formed commands: what a command must be for the row it stands for to be able to happen. -/

namespace Sys2Proof

/-- A request window has a lead byte other than 0x5A, or no whole byte (R147). -/
def requestLeadOk (bits : List Bool) : Bool :=
  match (bytesOfBits bits).head? with
  | some b => b != Config.fetchLead
  | none => true

/-- The payload of a well-formed PORT_RESET frame is at most 261 bytes (R150, R163). -/
def resetPayloadOk (payload : List Byte) : Bool := decide (payload.length ≤ Config.maxRequestPayload)

/-- Well-formedness of a command. Every other command is well-formed whatever its operands. -/
def Instr.wf : Instr → Bool
  | .requestWindowClose _ _ bits => requestLeadOk bits
  | .portReset _ payload => resetPayloadOk payload
  | .powerOnReset _ _ | .rstnFall _ | .rstnRise _ | .fetchWindowOpen _ | .fetchWindowClose _ _
  | .identify _ | .openSession _ | .closeSession _ | .deviceReset _ | .supEvictSession _
  | .noticeRead _ | .noticeSubscribe _
  | .surfAlloc _ | .surfFree _ | .surfInfo _ | .pixWrite _ | .pixRead _ | .supQuota _
  | .palGrant _ | .palRelease _ | .palSeek _ | .palWrite _ | .palRead _
  | .editBandPut _ | .editBandDrop _ | .editBandView _ | .editBandSurface _ | .editSetTiming _
  | .editSetRegion _ | .editSetBackground _ | .editSetStaleColour _ | .editEvictBand _
  | .submit _ | .recall _ | .abandon _ | .touch _
  | .jobFill _ | .jobCopy _ | .jobCancel _ | .vote _ | .supInhibit _ | .supPowerTimes _
  | .frameStoreGrant | .portAccessCompletion | .rowCompletion | .lineStart | .frameStart
  | .bandMarkedStale _ | .vblankStart | .leadCountReached | .tailCountReached | .timingStopped
  | .lineFetchCompletion | .backPorchStart | .displayPartStart => true

end Sys2Proof
end

