-- ==== Sys2Proof/Tests/Slice0.lean ====
section
/-! SUPPORT. The model's own tests: the well-formedness checks refuse what they must, commands do what the spec's examples say on small states,
and every statement that has hypotheses has a state and operands that meet them. -/

namespace Sys2Proof.Tests

open Sys2Proof Sys2Proof.Machine

-- One theorem at a time: each evaluation in the kernel holds a thread of its own.
set_option Elab.async false

/-! ### Small states -/

/-- The state a command leads to; State.reset where it leads to none. -/
def after (c : Instr) (s : State) : State :=
  match exec c s with
  | .next t => t
  | .fault _ => State.reset
  | .refused _ => State.reset

/-- The status and the payload of the reply in a port's slot. -/
def said (p : Port) (s : State) : Option (Status × List Byte) :=
  (s.links.get p).slot.map fun r => (r.status, r.payload)

/-- A session OPEN on a port, its epoch 1 and its vote OFF. -/
def openOn (p : Port) (s : State) : State :=
  ((s.setSession p
    { state := .opened, epoch := 1#8, label := some ⟨1#8, 2#8, 3#8, 4#8⟩, withdrawalPending := false,
      surfacesPending := false }).setVote p (some .off))

/-- A request in work at a port's link, with the epoch of an OPEN session. -/
def asks (p : Port) (k : Kind) (pl : List Byte) (s : State) : State :=
  s.setLink p
    { s.links.get p with
      state := .executing, slot := none, execSeq := 7#8,
      work := some { kind := k, epoch := 1#8, payload := pl, posted := false } }

/-- P0 (the supervisor) and P1 OPEN, the panel dark. -/
def two : State := openOn .p1 (openOn .p0 State.reset)

def tiny : Timing := { hdw := 8, hnd := 16, vdl := 4, vnd := 2, divider := 1 }

/-- Timing at the display part of a line, the panel in LOGIC_LEAD with demand from P0. -/
def runningAt (line : Nat) (s : State) : State :=
  { s.setVote .p0 (some .on) with
    layout := { s.layout with active := { s.layout.active with timing := tiny } }
    timing :=
      { s.timing with
        run := .running, period := if line < 4 then .display else .nonDisplay, line := line, part := .display,
        active := tiny }
    scan := if line < 4 then .fixed (List.replicate 8 Colour.black) else .none
    power := { (s.setVote .p0 (some .on)).power with state := .logicLead, target := 2 } }

/-- A stop is pending: the tail of P0's demand has run out, or demand has come back since. -/
def stopping (vote : Vote) (s : State) : State :=
  { s.setVote .p0 (some vote) with
    timing := { s.timing with stopPending := true }
    power := { (s.setVote .p0 (some vote)).power with state := .logicTail, stopRequested := true } }

/-- P1 owns surface (0, 1): 8 × 4 at depth 8, block 0. -/
def withSurface (s : State) : State :=
  { s.setEntry 0
      { state := .live, gen := 1#8, owner := .p1, width := 8, height := 4, depth := .d8, stride := 8, firstBlock := 0,
        blockCount := 1, pendingAbort := false } with
    alloc :=
      { (s.setEntry 0
          { state := .live, gen := 1#8, owner := .p1, width := 8, height := 4, depth := .d8, stride := 8,
            firstBlock := 0, blockCount := 1, pendingAbort := false }).alloc with
        free := [{ start := 1, length := 255 }], charge := s.alloc.charge.set .p1 1 } }

def surf : Handle := ⟨0, 1#8⟩

/-- P1's job on its surface, of two rows. -/
def fillJob (st : JobState) (done : Nat) : Job :=
  { owner := .p1, tag := 5#8, kind := .fill 9, dest := surf, dx := 2, dy := 1, w := 3, h := 2, direction := .down,
    arrival := 0#16, state := st, rowsDone := done, notify := true }

def copyJob (st : JobState) (done : Nat) : Job :=
  { fillJob st done with kind := .copy surf 0 0, direction := .up }

/-- The engine holds jobs; the row of the running one waits at the arbiter, or is in service. -/
def withJobs (js : List Job) (served : Bool) (s : State) : State :=
  { s with
    engine := { jobs := js, arrival := 3#16 }
    arb := { s.arb with engineRow := !served, busy := if served then some (.engineRow false) else none } }

def aborting (s : State) : State := s.setEntry 0 { s.alloc.table.get 0 with pendingAbort := true }

/-- P0 owns surface (1, 1) beside P1's, and runs a job on it; P1's job waits behind. -/
def withTwoOwners (s : State) : State :=
  withJobs
    [{ fillJob .running 0 with owner := .p0, dest := ⟨1, 1#8⟩ }, { fillJob .queued 0 with arrival := 1#16 }] false
    { (withSurface s).setEntry 1
        { (withSurface s).alloc.table.get 0 with owner := .p0, firstBlock := 1 } with
      alloc :=
        { ((withSurface s).setEntry 1
            { (withSurface s).alloc.table.get 0 with owner := .p0, firstBlock := 1 }).alloc with
          free := [{ start := 2, length := 254 }], charge := (withSurface s).alloc.charge.set .p0 1 } }

/-- P1 holds the grant (16, 16) with its cursor at a place. -/
def withGrant (c : Cursor) (s : State) : State :=
  s.setPalRecord .p1 { grant := some { base := 16, size := 16 }, cursor := some c, unpublished := false }

/-- A band with its freshness record. -/
def withBand (b : Band) (age : Nat) (s : State) : State :=
  { s with
    layout := { s.layout with active := { s.layout.active with bands := [b] } }
    fresh := { s.fresh with records := [{ key := b.key, age := age, mark := false }] } }

def fillBand (limit : Nat) : Band :=
  { key := ⟨.p1, 0⟩, first := 1, count := 2, part := .fill ⟨1#6, 2#6, 3#6⟩, staleLimit := limit }

def surfBand : Band := { fillBand 0 with part := .surface surf 0 1 }

/-- A TRANSACTION entry of P1. -/
def entry (awaited : List (BitVec 16)) : Transaction :=
  { port := .p1, tag := 2#8, waitJobs := true, edits := [.bandDrop 0], awaited := awaited }

def submitted (awaited : List (BitVec 16)) (s : State) : State :=
  (s.setQueue (s.layout.queue ++ [.transaction (entry awaited)])).setRecord .p1 .queued

/-- P1's session is CLOSING, its withdrawal waiting. -/
def leaving (s : State) : State :=
  { (s.setSession .p1
      { state := .closing, epoch := 1#8, label := some ⟨1#8, 2#8, 3#8, 4#8⟩, withdrawalPending := true,
        surfacesPending := true }).setVote .p1 none with
    layout := { s.layout with queue := s.layout.queue ++ [.withdrawal .p1] }
    alloc :=
      { s.alloc with
        withdrawalOut := s.alloc.withdrawalOut.set .p1 true, reportOwed := s.alloc.reportOwed.set .p1 true } }

/-! ### Well-formedness refuses -/

theorem test_wf_refuses_fetch_lead : Instr.wf (.requestWindowClose .p0 false (bitsOfByte 0x5A#8)) = false := by decide +kernel

theorem test_wf_refuses_long_port_reset : Instr.wf (.portReset .p0 (List.replicate 262 0#8)) = false := by
  decide +kernel

theorem test_wf_accepts_bare_window : Instr.wf (.requestWindowClose .p0 false [true, false]) = true := by decide +kernel

/-! ### Codings of the link -/

/-- The frame worked in chapter 9, section 9.8: IDENTIFY with sequence 1. -/
theorem test_identify_frame : requestFrame .identify 0#8 1#8 [] = [0x01#8, 0x00#8, 0x01#8, 0x00#8, 0x00#8, 0x09#8] ∧
    crc8 [0x01#8, 0x00#8, 0x01#8, 0x00#8, 0x00#8, 0x09#8] = 0#8 := by decide +kernel

theorem test_no_table_word : decodeTableWord 8 0 = none ∧ State.withFetchWord State.reset 8 0 = State.reset := by
  constructor <;> rfl

/-- Chapter 1: line 17 of the example, byte 0x3A is pixels 3 and 10 at depth 4; and two direct-colour pixels. -/
theorem test_pixels :
    pixelField .d4 0x3A#8 0 = 3 ∧ pixelField .d4 0x3A#8 1 = 10 ∧ directColour 0xF81F = ⟨63#6, 0#6, 63#6⟩ ∧
      directColour 0x8410 = ⟨33#6, 32#6, 33#6⟩ := by decide +kernel

/-- Chapter 5, section 5.9: the bytes of the depth-4 fill of pixels 3 to 8 with 9. -/
theorem test_fill_bytes :
    rowBytes .d4 (fun i => [0#8, 0x12#8, 0x34#8, 0x56#8, 0x78#8].getD i 0#8) 3 6 (fun _ => 9) =
      [0x19#8, 0x99#8, 0x99#8, 0x98#8] := by decide +kernel

theorem test_notice_record : (Notice.rejected 3#8 .overlap (some ⟨.p2, 0⟩)).record = [2#8, 3#8, 6#8, 0#8, 0x20#8] := by
  decide

/-! ### Commands -/

theorem test_power_on : (after (.powerOnReset .p2 3) two).supv = .p2 ∧
    (after (.powerOnReset .p2 3) two).timing.active.hdw = 800 ∧ (after (.powerOnReset .p2 3) two).powerOns = 1 := by
  decide +kernel

theorem test_request_window :
    (((after (.requestWindowClose .p1 false (bitsOfBytes [0x01#8, 0#8, 1#8, 0#8, 0#8, 9#8])) State.reset).links.get .p1).work) =
      some { kind := .identify, epoch := 0#8, payload := [], posted := false } := by decide +kernel

theorem test_corrupted_frame :
    said .p1 (after (.requestWindowClose .p1 false (bitsOfBytes [0x01#8, 0#8, 1#8, 0#8, 0#8, 8#8])) State.reset) =
      some (.badFrame, [3#8, 6#8, 0#8]) := by decide +kernel

theorem test_identify :
    said .p1 (after (.identify .p1) (asks .p1 .identify [] State.reset)) =
      some (.ok, [0x41#8, 0x0A#8, 1#8, 1#8, 0#8, 0#8, 0#8, 0#8]) := by decide +kernel

theorem test_fetch :
    ((after (.fetchWindowClose .p1 48) (after (.fetchWindowOpen .p1) State.reset)).links.get .p1).sdo =
      [0#8, 2#8, 0#8, 0#8, 0#8, 0#8] ++ [crc8 [2#8, 0#8, 0#8, 0#8, 0#8]] := by decide +kernel

theorem test_open : said .p0 (after (.openSession .p0) (asks .p0 .openSession [9#8, 8#8, 7#8, 6#8] State.reset)) =
    some (.ok, [1#8, 1#8]) := by decide +kernel

theorem test_close : ((after (.closeSession .p1) (asks .p1 .closeSession [] two)).sessions.get .p1).state = .idle := by
  decide +kernel

theorem test_port_reset : ((after (.portReset .p1 []) (withSurface two)).sessions.get .p1).state = .idle ∧
    ((after (.portReset .p1 []) (withSurface two)).alloc.table.get 0).state = .free ∧
    (after (.portReset .p1 []) (withSurface two)).alloc.free = [{ start := 0, length := 256 }] := by decide +kernel

theorem test_rstn : ((after (.rstnFall .p1) two).links.get .p1).rstLow = true ∧
    ((after (.rstnRise .p1) (after (.rstnFall .p1) two)).links.get .p1).rstLow = false := by decide +kernel

/-- CSn stays low through a pulse on RSTn: SDO is released while RSTn is low and driven again after it, until CSn rises. -/
theorem test_sdo :
    let opened := after (.fetchWindowOpen .p1) two
    let fallen := after (.rstnFall .p1) opened
    let risen := after (.rstnRise .p1) fallen
    [two, opened, fallen, risen, after (.powerOnReset .p0 0) risen, after (.fetchWindowClose .p1 48) risen].map
        (fun s => sdoDriven s .p1) = [false, true, false, true, true, false] ∧
      (risen.links.get .p1).window = none := by decide +kernel

theorem test_device_reset :
    ((after (.deviceReset .p0) (asks .p0 .deviceReset [] (withSurface two))).alloc.table.get 0).gen = 1#8 ∧
      (after (.deviceReset .p0) (asks .p0 .deviceReset [] (withSurface two))).alloc.charge = PerPort.every 0 := by
  decide +kernel

theorem test_evict_session :
    said .p0 (after (.supEvictSession .p0) (asks .p0 .supEvictSession [1#8] two)) =
      some (.ok, [1#8, 1#8, 2#8, 3#8, 4#8, 0#8]) := by decide +kernel

theorem test_notice_read :
    said .p1 (after (.noticeRead .p1)
      (asks .p1 .noticeRead [2#8] (two.setNotices .p1 { queue := [.jobDone 5#8], lost := true, frameSub := false }))) =
      some (.ok, [1#8, 1#8, 5#8, 5#8, 0#8, 0#8, 0xFF#8]) := by decide +kernel

theorem test_notice_subscribe : said .p1 (after (.noticeSubscribe .p1) (asks .p1 .noticeSubscribe [1#8] two)) =
    some (.ok, [1#8]) := by decide +kernel

/-- Chapter 12, step 2 of 12.1: 320 × 40 at depth 4. -/
theorem test_surf_alloc :
    said .p0 (after (.surfAlloc .p0) (asks .p0 .surfAlloc ([0x40#8, 1#8, 40#8, 0#8, 4#8]) two)) =
      some (.ok, [0#8, 1#8, 160#8, 0#8, 0#8, 0#8, 4#8, 0#8]) := by decide +kernel

theorem test_surf_free : said .p1 (after (.surfFree .p1) (asks .p1 .surfFree [0#8, 1#8] (withSurface two))) =
    some (.ok, [0#8, 0#8]) := by decide +kernel

theorem test_surf_info : said .p1 (after (.surfInfo .p1) (asks .p1 .surfInfo [0#8, 2#8] (withSurface two))) =
    some (.noSurface, [1#8, 0#8, 64#8, 0#8]) := by decide +kernel

theorem test_pix_write :
    (after (.frameStoreGrant) (after (.pixWrite .p1) (asks .p1 .pixWrite [0#8, 1#8, 30#8, 0#8, 0#8, 0xAA#8, 0xBB#8, 0xCC#8]
      (withSurface two)))).store = [(30, 0xAA#8), (31, 0xBB#8)] := by decide +kernel

theorem test_pix_read :
    said .p1 (after .portAccessCompletion (after .frameStoreGrant (after (.pixRead .p1)
      (asks .p1 .pixRead [0#8, 1#8, 31#8, 0#8, 0#8, 2#8, 0#8] { withSurface two with store := [(31, 0xBB#8)] })))) =
      some (.range, [0xBB#8]) := by decide +kernel

theorem test_quota : said .p0 (after (.supQuota .p0) (asks .p0 .supQuota [1#8, 0#8, 1#8] (withSurface two))) =
    some (.ok, [1#8, 0#8]) := by decide +kernel

theorem test_pal_grant : said .p0 (after (.palGrant .p0) (asks .p0 .palGrant [16#8, 0#8] (withGrant ⟨0, .red⟩ two))) =
    some (.ok, [0#8, 0#8, 16#8, 0#8]) := by decide +kernel

theorem test_pal_release : said .p1 (after (.palRelease .p1) (asks .p1 .palRelease [] (withGrant ⟨0, .red⟩ two))) =
    some (.ok, [16#8, 0#8, 16#8, 0#8]) := by decide +kernel

theorem test_pal_seek : said .p1 (after (.palSeek .p1) (asks .p1 .palSeek [16#8] (withGrant ⟨3, .blue⟩ two))) =
    some (.range, [3#8, 0#8, 2#8]) := by decide +kernel

theorem test_pal_write :
    said .p1 (after (.palWrite .p1) (asks .p1 .palWrite [0xFF#8, 1#8, 2#8] (withGrant ⟨15, .green⟩ two))) =
      some (.range, [2#8, 0#8, 16#8, 0#8, 0#8]) ∧
    (after (.palWrite .p1) (asks .p1 .palWrite [0xFF#8, 1#8, 2#8] (withGrant ⟨15, .green⟩ two))).pal.draft.get 31 =
      ⟨0#6, 63#6, 1#6⟩ := by decide +kernel

theorem test_pal_read : said .p1 (after (.palRead .p1) (asks .p1 .palRead [2#8] (withGrant ⟨0, .red⟩ two))) =
    some (.ok, [0#8, 0#8, 0#8, 0#8, 2#8]) := by decide +kernel

theorem test_edit_band_put :
    ((after (.editBandPut .p1) (asks .p1 .edit
      [1#8, 3#8, 2#8, 40#8, 0#8, 200#8, 0#8, 1#8, 0#8, 1#8, 0#8, 0#8, 8#8, 0#8, 0#8, 0#8, 0#8, 4#8] two)).layout.staging.get .p1) =
      [.bandPut { key := ⟨.p1, 3⟩, first := 40, count := 200, part := .surface surf 0 8, staleLimit := 4 }] := by
  decide +kernel

theorem test_edit_others :
    said .p1 (after (.editBandDrop .p1) (asks .p1 .edit [2#8, 7#8] two)) = some (.ok, [1#8]) ∧
    said .p1 (after (.editBandView .p1) (asks .p1 .edit [3#8, 0#8, 0#8, 8#8, 0#8, 0#8] two)) = some (.range, []) ∧
    said .p1 (after (.editBandSurface .p1) (asks .p1 .edit [4#8, 0#8, 31#8, 0#8] two)) = some (.ok, [1#8]) := by
  decide +kernel

theorem test_supervisor_edits :
    said .p0 (after (.editSetTiming .p0) (asks .p0 .edit [8#8, 0#8, 0#8, 0#8, 0#8, 0#8, 0#8, 0#8, 0#8, 0#8] two)) =
      some (.ok, [1#8]) ∧
    said .p1 (after (.editSetRegion .p1) (asks .p1 .edit [9#8, 1#8, 0#8, 0#8, 9#8, 0#8] two)) = some (.notSupervisor, []) ∧
    said .p0 (after (.editSetBackground .p0) (asks .p0 .edit [10#8, 1#8, 2#8, 3#8] two)) = some (.ok, [1#8]) ∧
    said .p0 (after (.editSetStaleColour .p0) (asks .p0 .edit [11#8, 1#8, 2#8, 3#8] two)) = some (.ok, [1#8]) ∧
    said .p0 (after (.editEvictBand .p0) (asks .p0 .edit [12#8, 4#8, 0#8] two)) = some (.range, []) := by
  decide +kernel

/-- A submission while the panel is dark is applied at once; dropping a band that does not exist is rejected NO_BAND. -/
theorem test_submit :
    ((after (.submit .p1) (asks .p1 .submit [2#8, 0#8] (two.setStaging .p1 [.bandDrop 0]))).notices.get .p1).queue =
      [.rejected 2#8 .noBand (some ⟨.p1, 0⟩)] ∧
    (after (.submit .p1) (asks .p1 .submit [2#8, 0#8] (two.setStaging .p1 [.bandPut (fillBand 4)]))).layout.active.bands =
      [fillBand 4] := by decide +kernel

theorem test_recall_abandon :
    said .p1 (after (.recall .p1) (asks .p1 .recall [] (submitted [] (runningAt 0 two)))) = some (.ok, [1#8]) ∧
    said .p1 (after (.abandon .p1) (asks .p1 .abandon [] (submitted [] (runningAt 0 two)))) = some (.pending, []) := by
  decide +kernel

theorem test_touch :
    said .p1 (after (.touch .p1) (asks .p1 .touch [0x13#8] (withBand (fillBand 3) 2 two))) =
      some (.ok, [1#8, 0#8, 2#8]) := by decide +kernel

theorem test_job_fill :
    said .p1 (after (.jobFill .p1) (asks .p1 .jobFill [5#8, 0#8, 1#8, 2#8, 0#8, 1#8, 0#8, 3#8, 0#8, 2#8, 0#8, 9#8, 0#8]
      (withSurface two))) = some (.ok, [0#8]) := by decide +kernel

theorem test_job_copy :
    (after (.jobCopy .p1) (asks .p1 .jobCopy [6#8, 0#8, 1#8, 0#8, 0#8, 0#8, 0#8, 0#8, 1#8, 0#8, 0#8, 1#8, 0#8, 8#8, 0#8, 2#8, 0#8]
      (withSurface two))).engine.jobs.map Job.direction = [.up] := by decide +kernel

theorem test_job_cancel :
    said .p1 (after (.jobCancel .p1) (asks .p1 .jobCancel [5#8] (withJobs [fillJob .running 1] false (withSurface two)))) =
      some (.ok, [1#8, 1#8, 0#8]) := by decide +kernel

theorem test_vote : (after (.vote .p1) (asks .p1 .vote [1#8] two)).power.state = .logicLead ∧
    (after (.vote .p1) (asks .p1 .vote [1#8] two)).timing.run = .running ∧
    said .p1 (after (.vote .p1) (asks .p1 .vote [1#8] two)) = some (.ok, [1#8, 1#8, 1#8]) := by decide +kernel

theorem test_inhibit_and_times :
    said .p0 (after (.supInhibit .p0) (asks .p0 .supInhibit [1#8] two)) = some (.ok, [1#8, 0#8]) ∧
    said .p0 (after (.supPowerTimes .p0) (asks .p0 .supPowerTimes [3#8, 0#8] two)) = some (.range, []) := by
  decide +kernel

theorem test_row :
    (after .frameStoreGrant (withJobs [fillJob .running 1] false (withSurface two))).store =
      [(18, 9#8), (19, 9#8), (20, 9#8)] ∧
    ((after .rowCompletion (withJobs [fillJob .running 1] true (withSurface two))).notices.get .p1).queue =
      [.jobDone 5#8] := by decide +kernel

theorem test_line_start :
    (after .lineStart (runningAt 0 (withBand (fillBand 3) 0 two))).scan =
      .fixed (List.replicate 8 ⟨1#6, 2#6, 3#6⟩) ∧ (after .lineStart (runningAt 4 two)).timing.line = 5 := by
  decide +kernel

/-- A surface band's line is one fetch, and the fetch fixes its colours. -/
theorem test_line_fetch :
    (after .lineFetchCompletion (after .frameStoreGrant (after .lineStart
      { runningAt 0 (withBand surfBand 0 (withGrant ⟨0, .red⟩ (withSurface two))) with
        store := [(8, 1#8), (9, 1#8), (10, 1#8), (11, 1#8), (12, 1#8), (13, 1#8), (14, 1#8), (15, 1#8)] }))).scan =
      .fixed (List.replicate 8 Colour.black) := by decide +kernel

theorem test_line_parts :
    (panelOutputs (after .backPorchStart { runningAt 1 two with timing := { (runningAt 1 two).timing with part := .sync } })).hsync = false ∧
    (panelOutputs (after .displayPartStart
      { runningAt 1 two with timing := { (runningAt 1 two).timing with part := .backPorch } })).den = true := by
  decide +kernel

theorem test_frame_start :
    (after .frameStart (runningAt 5 (withBand (fillBand 3) 2 two))).fresh.staleSet = [⟨.p1, 0⟩] ∧
    ((after (.bandMarkedStale ⟨.p1, 0⟩) (runningAt 5 (withBand (fillBand 3) 2 two))).notices.get .p0).queue =
      [.stale ⟨.p1, 0⟩] := by decide +kernel

theorem test_vblank : (after .vblankStart (runningAt 3 two)).timing.frameNumber = 1#16 ∧
    (after .vblankStart (runningAt 3 two)).power.frameCount = 1 := by decide +kernel

theorem test_counts :
    (after .leadCountReached (let s := runningAt 3 two; { s with power := { s.power with frameCount := 1 } })).power.state =
      .lit ∧
    (after .tailCountReached (let s := runningAt 3 two
      { s with power := { s.power with state := .logicTail, frameCount := 1 } })).timing.stopPending = true := by
  decide +kernel

theorem test_timing_stopped :
    (after .timingStopped (stopping .off (runningAt 5 two))).power.state = .dark ∧
    (after .timingStopped (stopping .on (runningAt 5 two))).power.state = .logicLead := by decide +kernel

/-- The queue is first in, first out, and an empty one leaves the part idle. -/
theorem test_step :
    (match step { two with pending := [.rstnFall .p1, .rstnRise .p1] } with
     | .next t => t.pending
     | .fault _ => []
     | .refused _ => []) = [.rstnRise .p1] ∧ step State.reset = .next State.reset := by
  constructor
  · decide +kernel
  · rfl

/-! ### Every statement's hypotheses are met

For each statement of Certificates/Slice0/Obligations.lean that has hypotheses, a state and operands that meet them together, clause by
clause. -/

def admits (s : State) (p : Port) (k : Kind) (pl : List Byte) : Bool :=
  decide ((s.links.get p).work = some { kind := k, epoch := (s.sessions.get p).epoch, payload := pl, posted := false }) &&
    decide ((s.sessions.get p).state = .opened) && decide (k ∈ supervisorKinds → p = s.supv)

theorem admitted_of_check {s : State} {p : Port} {k : Kind} {pl : List Byte} (h : admits s p k pl = true) :
    Admitted s p k pl := by
  simp only [admits, Bool.and_eq_true, decide_eq_true_eq] at h
  exact ⟨h.1.1, h.1.2, h.2⟩

theorem inWork_of_check {s : State} {p : Port} {k : Kind} {ep : Byte} {pl : List Byte}
    (h : decide ((s.links.get p).work = some { kind := k, epoch := ep, payload := pl, posted := false }) = true) :
    InWork s p k ep pl := by
  unfold InWork; exact of_decide_eq_true h

theorem submitted_of_check {s : State} {p : Port} (h : hasTransaction s p = true) : Submitted s p := by
  by_contra hn
  have : findTransaction p s.layout.queue = none :=
    findTransaction_eq_none.2 fun t ht hp => hn ⟨t, ht, hp⟩
  simp [hasTransaction, this] at h

theorem notSubmitted_of_check {s : State} {p : Port} (h : hasTransaction s p = false) : ¬Submitted s p := by
  rintro ⟨t, ht, hp⟩
  have hn : findTransaction p s.layout.queue = none := by
    simpa [hasTransaction, Option.isSome_eq_false_iff] using h
  exact findTransaction_eq_none.1 hn t ht hp

/-- A request in work with an epoch of its own. -/
def asksAs (p : Port) (k : Kind) (ep : Byte) (pl : List Byte) (s : State) : State :=
  s.setLink p
    { s.links.get p with
      state := .executing, slot := none, work := some { kind := k, epoch := ep, payload := pl, posted := false } }

def linked (p : Port) (f : Link → Link) (s : State) : State := s.setLink p (f (s.links.get p))

/-- P1's access waits at the frame store. -/
def waiting (s : State) : State :=
  after (.pixWrite .p1) (asks .p1 .pixWrite [0#8, 1#8, 0#8, 0#8, 0#8, 0xAA#8] (withSurface s))

theorem test_witness_StepTakesFrontCommand :
    { two with pending := [.rstnFall .p1, .lineStart] }.pending = .rstnFall .p1 :: [.lineStart] := rfl

theorem test_witness_ExecKeepsTheQueue : ∃ t, exec (.rstnRise .p1) two = .next t := ⟨_, rfl⟩

theorem test_witness_RequestFrameIsAccepted :
    ((List.replicate 261 0#8).length ≤ 261 ∧ (List.replicate 7 true).length < 8 ∧
      (two.links.get .p1).rstLow = false ∧ (two.links.get .p1).csLow = false ∧ Kind.palWrite ≠ .portReset ∧
      (two.links.get .p1).state ≠ .executing) ∧
    ((asks .p1 .identify [] two).links.get .p1).rstLow = false ∧
      ((asks .p1 .identify [] two).links.get .p1).csLow = false := by decide +kernel

theorem test_witness_MalformedFrameIsAnswered :
    ((two.links.get .p1).rstLow = false ∧ (two.links.get .p1).csLow = false ∧
      (two.links.get .p1).state ≠ .executing) ∧
    (∀ bs ∈ [[1#8], [1#8, 2#8, 3#8, 4#8, 5#8]], bs ≠ [] ∧ bs.head? ≠ some 0x5A#8 ∧ bs.length < 6) ∧
    (let bs : List Byte := [1#8, 0#8, 1#8, 6#8, 1#8, 0#8]
     6 ≤ bs.length ∧ 261 < num16 bs 3) ∧
    (let bs : List Byte := [1#8, 0#8, 1#8, 1#8, 0#8, 0#8]
     6 ≤ bs.length ∧ bs.length ≠ 6 + num16 bs 3) ∧
    (let bs : List Byte := [1#8, 0#8, 1#8, 5#8, 1#8] ++ List.replicate 262 0#8
     6 ≤ bs.length ∧ num16 bs 3 ≤ 261 ∧ bs.length = 6 + num16 bs 3) ∧
    (let bs : List Byte := [1#8, 0#8, 1#8, 0#8, 0#8, 8#8]
     6 ≤ bs.length ∧ num16 bs 3 ≤ 261 ∧ bs.length = 6 + num16 bs 3 ∧ crc8 bs ≠ 0#8) ∧
    (let bs : List Byte := List.replicate 6 0#8
     6 ≤ bs.length ∧ num16 bs 3 ≤ 261 ∧ bs.length = 6 + num16 bs 3 ∧ crc8 bs = 0#8 ∧
       ∀ k ∈ Kind.all, k.code ≠ bs.getD 0 0#8) := by decide +kernel

theorem test_witness_BusyOrHeldLinkTakesNoFrame :
    (∃ bs : List Byte, bs ≠ [] ∧ bs.head? ≠ some 0x5A#8 ∧
      ((asks .p1 .identify [] two).links.get .p1).rstLow = false ∧
      ((asks .p1 .identify [] two).links.get .p1).csLow = false ∧
      ((asks .p1 .identify [] two).links.get .p1).state = .executing ∧
      ∀ ep seq pl, pl.length ≤ 261 → bs ≠ requestFrame .portReset ep seq pl) ∧
    ((after (.rstnFall .p1) two).links.get .p1).rstLow = true ∧
    ((after (.fetchWindowOpen .p1) two).links.get .p1).csLow = true := by
  refine ⟨⟨[1#8], by decide, by decide, by decide +kernel, by decide +kernel, by decide +kernel, ?_⟩, by decide +kernel,
    by decide +kernel⟩
  intro ep seq pl _ h
  have := congrArg List.length h
  simp [requestFrame, requestHead] at this

theorem test_witness_PortResetClearsTheLink :
    (List.replicate 261 0#8).length ≤ 261 ∧ (State.reset.links.get .p1).rstLow = false ∧
      (State.reset.sessions.get .p1).state ≠ .opened ∧ (State.reset.links.get .p1).csLow = false := by decide +kernel

theorem test_witness_FetchWindowShowsTheReply :
    (let s := after (.identify .p1) (asks .p1 .identify [] two)
     (s.links.get .p1).rstLow = false ∧ (s.links.get .p1).csLow = false ∧ (s.links.get .p1).state = .replyReady ∧
       (s.links.get .p1).slot.isSome = true ∧
       ((after (.fetchWindowOpen .p1) s).links.get .p1).window.map FetchWindow.fromSlot = some true ∧
       ((after (.fetchWindowOpen .p1) s).links.get .p1).progress = 0 ∧
       6 + 8 ≤ 112 / 8 ∧ 111 / 8 < 6 + 8) ∧
    ((asks .p1 .identify [] two).links.get .p1).state = .executing ∧ (two.links.get .p1).state = .ready ∧
    (let s := after (.rstnFall .p1) (after (.fetchWindowOpen .p1) two)
     (s.links.get .p1).window = none ∧ (s.links.get .p1).csLow = true) := by
  decide +kernel

theorem test_witness_RequestFrameRoundTrip : (List.replicate 261 0xFF#8).length ≤ 261 := by decide +kernel

theorem test_witness_EditRoundTrip : Edit.stageable .p1 (.bandPut surfBand) = true ∧
    parseEdit .p1 (putEdit (.bandPut surfBand)) = some (.bandPut surfBand) := by decide +kernel

theorem test_witness_SessionChecksInOrder :
    (requestRow (.supInhibit .p1) = some (.p1, .supInhibit) ∧ InWork (asks .p1 .supInhibit [1#8] two) .p1 .supInhibit 1#8 [1#8] ∧
      rowNames (.supInhibit .p1) [1#8] ∧ Kind.supInhibit ∈ supervisorKinds ∧
      Port.p1 ≠ (asks .p1 .supInhibit [1#8] two).supv) ∧
    (InWork (asks .p0 .supInhibit [1#8] State.reset) .p0 .supInhibit 1#8 [1#8] ∧
      ((asks .p0 .supInhibit [1#8] State.reset).sessions.get .p0).state ≠ .opened) ∧
    (requestRow (.editBandDrop .p1) = some (.p1, .edit) ∧ InWork (asks .p1 .edit [2#8, 7#8] State.reset) .p1 .edit 1#8 [2#8, 7#8] ∧
      rowNames (.editBandDrop .p1) [2#8, 7#8] ∧ Kind.edit ∉ supervisorKinds ∧
      ((asks .p1 .edit [2#8, 7#8] State.reset).sessions.get .p1).state ≠ .opened) ∧
    (InWork (asksAs .p1 .vote 2#8 [1#8] two) .p1 .vote 2#8 [1#8] ∧
      ((asksAs .p1 .vote 2#8 [1#8] two).sessions.get .p1).state = .opened ∧
      2#8 ≠ ((asksAs .p1 .vote 2#8 [1#8] two).sessions.get .p1).epoch) ∧
    (InWork (asks .p1 .vote [] two) .p1 .vote 1#8 [] ∧ ([] : List Byte).length < Kind.vote.payloadRange.1) ∧
    (InWork (asks .p1 .identify [0#8] State.reset) .p1 .identify 1#8 [0#8] ∧ Kind.identify.payloadRange.2 < [0#8].length) ∧
    (InWork (asks .p1 .edit [] two) .p1 .edit 1#8 [] ∧ rowNames (.editEvictBand .p1) [] ∧
      ([] : List Byte).length < Kind.edit.payloadRange.1) := by
  refine ⟨⟨rfl, ?_, ?_, ?_, ?_⟩, ⟨?_, ?_⟩, ⟨rfl, ?_, ?_, ?_, ?_⟩, ⟨?_, ?_, ?_⟩, ⟨?_, ?_⟩, ⟨?_, ?_⟩, ?_, ?_, ?_⟩
  all_goals
    first
    | decide +kernel
    | exact inWork_of_check (by decide +kernel)
    | (intro q code h; cases h <;> first | exact Or.inl rfl | exact Or.inr (by decide))

theorem test_witness_IdentifyReports : InWork (asks .p1 .identify [] State.reset) .p1 .identify 1#8 [] :=
  inWork_of_check (by decide +kernel)

theorem test_witness_OpenActsBySessionState :
    (InWork (asks .p1 .openSession [1#8, 2#8, 3#8, 4#8] State.reset) .p1 .openSession 1#8 [1#8, 2#8, 3#8, 4#8] ∧
      ((asks .p1 .openSession [1#8, 2#8, 3#8, 4#8] State.reset).sessions.get .p1).state = .idle) ∧
    (InWork (asks .p1 .openSession [9#8, 2#8, 3#8, 4#8] two) .p1 .openSession 1#8 [9#8, 2#8, 3#8, 4#8] ∧
      (two.sessions.get .p1).state = .opened ∧ (two.sessions.get .p1).label = some ⟨1#8, 2#8, 3#8, 4#8⟩) ∧
    ((leaving two).sessions.get .p1).state = .closing := by
  refine ⟨⟨?_, ?_⟩, ⟨?_, ?_, ?_⟩, ?_⟩
  all_goals first | decide +kernel | exact inWork_of_check (by decide +kernel)

theorem test_witness_TeardownWhileRunning :
    (let s := asks .p1 .closeSession [] (withJobs [fillJob .running 1] false (withSurface (runningAt 0 two)))
     Lawful s ∧ s.timing.run = .running ∧ (s.sessions.get .p1).state = .opened ∧ Admitted s .p1 .closeSession []) ∧
    (Lawful (runningAt 4 two) ∧ (List.replicate 261 0#8).length ≤ 261 ∧ ((runningAt 4 two).links.get .p0).rstLow = false ∧
      ((runningAt 4 two).links.get .p0).csLow = false ∧ ((runningAt 4 two).sessions.get .p0).state = .opened) ∧
    (let s := asks .p0 .supEvictSession [1#8] (waiting (runningAt 0 two))
     Lawful s ∧ s.timing.run = .running ∧ (s.sessions.get .p1).state = .opened ∧
       Admitted s .p0 .supEvictSession [BitVec.ofNat 8 Port.p1.toNat] ∧ waitsForStore s .p1 ∧
       ∃ a ∈ s.arb.ports, a.port = .p1) := by
  refine ⟨⟨?_, ?_, ?_, ?_⟩, ⟨?_, ?_, ?_, ?_, ?_⟩, ?_, ?_, ?_, ?_, ?_, ?_⟩
  all_goals
    first
    | decide +kernel
    | exact admitted_of_check (by decide +kernel)
    | exact lawful_of_check (by decide +kernel)
    | (unfold waitsForStore; decide +kernel)

theorem test_witness_TeardownWhileStopped :
    (∀ s ∈ [withTwoOwners two, withJobs [fillJob .running 1] true (withSurface two)],
      let s := asks .p1 .closeSession [] s
      Lawful s ∧ s.timing.run = .stopped ∧ Admitted s .p1 .closeSession [] ∧ (s.links.get .p1).rstLow = false ∧
        (s.links.get .p1).csLow = false) ∧
    ¬RunsJob (withTwoOwners two) .p1 ∧ RunsJob (withJobs [fillJob .running 1] true (withSurface two)) .p1 ∧
    NamedBy (withJobs [fillJob .running 1] true (withSurface two)) (fillJob .running 1) 0 ∧
    (let s := asks .p0 .supEvictSession [1#8] (waiting two)
     Lawful s ∧ s.timing.run = .stopped ∧ (s.sessions.get .p1).state = .opened ∧
       Admitted s .p0 .supEvictSession [BitVec.ofNat 8 Port.p1.toNat] ∧ waitsForStore s .p1 ∧
       ∃ a ∈ s.arb.ports, a.port = .p1) := by
  refine ⟨?_, ?_, ?_, ?_, ?_, ?_, ?_, ?_, ?_, ?_⟩
  · intro s hs
    refine ⟨lawful_of_check ?_, ?_, admitted_of_check ?_, ?_, ?_⟩
    all_goals revert s; decide +kernel
  all_goals
    first
    | decide +kernel
    | exact admitted_of_check (by decide +kernel)
    | exact lawful_of_check (by decide +kernel)
    | (unfold waitsForStore; decide +kernel)
    | (unfold NamedBy; decide +kernel)
    | (unfold RunsJob; decide +kernel)

theorem test_witness_IdlePortHoldsNothing : Lawful two ∧ (two.sessions.get .p3).state = .idle :=
  ⟨lawful_of_check (by decide +kernel), by decide +kernel⟩

theorem test_witness_EvictSessionAnswers :
    (Admitted (asks .p0 .supEvictSession [4#8] two) .p0 .supEvictSession [4#8] ∧ 3 < (4#8 : Byte).toNat) ∧
    (Admitted (asks .p0 .supEvictSession [0#8] two) .p0 .supEvictSession [0#8] ∧ (0#8 : Byte).toNat = Port.p0.toNat) ∧
    (Admitted (asks .p0 .supEvictSession [3#8] two) .p0 .supEvictSession [3#8] ∧ Port.p3 ≠ .p0 ∧
      (3#8 : Byte).toNat = Port.p3.toNat ∧ ((asks .p0 .supEvictSession [3#8] two).sessions.get .p3).state = .idle) ∧
    (Admitted (asks .p0 .supEvictSession [1#8] (leaving two)) .p0 .supEvictSession [1#8] ∧
      ((asks .p0 .supEvictSession [1#8] (leaving two)).sessions.get .p1).state = .closing) ∧
    (Admitted (asks .p0 .supEvictSession [1#8] two) .p0 .supEvictSession [1#8] ∧
      ((asks .p0 .supEvictSession [1#8] two).sessions.get .p1).state = .opened ∧
      ((asks .p0 .supEvictSession [1#8] two).sessions.get .p1).label = some ⟨1#8, 2#8, 3#8, 4#8⟩) := by
  refine ⟨⟨?_, ?_⟩, ⟨?_, ?_⟩, ⟨?_, ?_, ?_, ?_⟩, ⟨?_, ?_⟩, ⟨?_, ?_, ?_⟩⟩
  all_goals first | decide +kernel | exact admitted_of_check (by decide +kernel)

theorem test_witness_DeviceResetClearsAllButTheTiming :
    let s := asks .p0 .deviceReset [] (waiting two)
    Admitted s .p0 .deviceReset [] ∧ (Port.p2 ≠ .p0 ∧ ∀ a ∈ s.arb.ports, a.port ≠ .p2) ∧
      (Port.p1 ≠ .p0 ∧ (∃ a ∈ s.arb.ports, a.port = .p1) ∧ waitsForStore s .p1) ∧ LinkLaw s ∧
      LinkLaw (withJobs [fillJob .running 1] true s) := by
  refine ⟨?_, ⟨?_, ?_⟩, ⟨?_, ?_, ?_⟩, ?_, ?_⟩
  all_goals
    first
    | decide +kernel
    | exact admitted_of_check (by decide +kernel)
    | exact linkLaw_of_check (by decide +kernel)
    | (unfold waitsForStore; decide +kernel)

theorem test_witness_NoticeRequestsAct :
    (∀ v ∈ [0#8, 1#8, 8#8, 9#8], admits (asks .p1 .noticeRead [v] two) .p1 .noticeRead [v] = true) ∧
    ∀ v ∈ [0#8, 1#8, 2#8], admits (asks .p1 .noticeSubscribe [v] two) .p1 .noticeSubscribe [v] = true := by decide +kernel

theorem test_witness_PostingFollowsTheQueueRules :
    (State.reset.sessions.get .p1).state ≠ .opened ∧ (two.sessions.get .p1).state = .opened ∧
    (let q := (two.setNotices .p1 { queue := [.jobDone 1#8, .frame 4#16], lost := false, frameSub := true }).notices.get .p1
     q.queue = [.jobDone 1#8] ++ .frame 4#16 :: [] ∧ ∀ m ∈ [Notice.jobDone 1#8] ++ [], m.isFrame = false) ∧
    (let q := (two.setNotices .p1 { queue := [.power .lit], lost := false, frameSub := true }).notices.get .p1
     q.queue = [] ++ .power .lit :: [] ∧ ∀ m ∈ ([] ++ [] : List Notice), m.isPower = false) ∧
    (let q := (two.setNotices .p1 { queue := [.stale ⟨.p1, 0⟩], lost := false, frameSub := true }).notices.get .p1
     .stale ⟨.p1, 0⟩ ∈ q.queue) ∧
    (Notice.committed 1#8 0#16).isOutcome = true ∧ (Notice.jobDone 1#8).isOutcome = false ∧
    (let q : List Notice := .rejected 1#8 .range none :: List.replicate 14 (.jobDone 1#8)
     (q.filter fun m => !m.isOutcome).length < 15) ∧
    (let q : List Notice := List.replicate 15 (.jobDone 1#8)
     15 ≤ (q.filter fun m => !m.isOutcome).length) := by decide +kernel

theorem test_witness_SurfAllocTakesTheFirstFit :
    let ask (w h : Nat) (d : Byte) (s : State) := asks .p1 .surfAlloc (put16 w ++ put16 h ++ [d]) s
    let ok (w h : Nat) (d : Byte) (s : State) := admits (ask w h d s) .p1 .surfAlloc (put16 w ++ put16 h ++ [d])
    (ok 7 1 8#8 two = true ∧ ¬(8 ≤ 7)) ∧
    (ok 2048 1024 16#8 two = true ∧ 256 < (((2048 * 16 + 7) / 8 + 7) / 8 * 8 * 1024 + 2047) / 2048) ∧
    (let full : State := { two with alloc := { two.alloc with
        table := Vector.replicate 32 { (two.alloc.table.get 0) with state := .live } } }
     ok 8 1 1#8 full = true ∧ ∀ i : Fin 32, ((ask 8 1 1#8 full).alloc.table.get i).state ≠ .free) ∧
    (let poor := { two with alloc := { two.alloc with quota := PerPort.every 0 } }
     ok 8 1 1#8 poor = true ∧ ((ask 8 1 1#8 poor).alloc.table.get 0).state = .free ∧
       (ask 8 1 1#8 poor).alloc.quota.get .p1 < (ask 8 1 1#8 poor).alloc.charge.get .p1 + 1) ∧
    (let small := { two with alloc := { two.alloc with free := [{ start := 0, length := 1 }] } }
     ok 2048 2 8#8 small = true ∧ (∀ x ∈ (ask 2048 2 8#8 small).alloc.free, x.length ≤ 1) ∧
       1 < (2048 * 2 + 2047) / 2048 ∧ ∃ x ∈ (ask 2048 2 8#8 small).alloc.free, x.length = 1) ∧
    (let frag := { two with alloc := { two.alloc with
        free := [{ start := 0, length := 1 }, { start := 2, length := 2 }, { start := 10, length := 9 }] } }
     ok 2048 2 8#8 frag = true ∧
       (ask 2048 2 8#8 frag).alloc.free =
         [{ start := 0, length := 1 }] ++ { start := 2, length := 2 } :: [{ start := 10, length := 9 }] ∧
       (ask 2048 2 8#8 frag).alloc.charge.get .p1 + 2 ≤ (ask 2048 2 8#8 frag).alloc.quota.get .p1) := by decide +kernel

theorem test_witness_SurfFreeReleases :
    let own (s : State) := (s.alloc.table.get surf.index).state = .live ∧
      (s.alloc.table.get surf.index).gen = surf.gen ∧ (s.alloc.table.get surf.index).owner = .p1
    let shown (s : State) := ∃ b ∈ s.layout.active.bands, ∃ x y, b.part = .surface surf x y
    let pending (s : State) := ∃ t, QueueEntry.transaction t ∈ s.layout.queue ∧ t.port = .p1 ∧
      ∃ d ∈ t.edits, (∃ n, d = .bandSurface n surf) ∨ ∃ b x y, d = .bandPut b ∧ b.part = .surface surf x y
    let ask (s : State) := asks .p1 .surfFree (putHandle surf) s
    let ok (s : State) := Admitted (ask s) .p1 .surfFree (putHandle surf)
    (ok two ∧ ¬own (ask two)) ∧
    (let s := withBand surfBand 0 (withSurface two)
     ok s ∧ own (ask s) ∧ shown (ask s)) ∧
    (let s := submitted [] ((withSurface two).setQueue [])
     let s := { s with layout := { s.layout with
       queue := [.transaction { entry [] with edits := [.bandSurface 0 surf] }] } }
     ok s ∧ own (ask s) ∧ ((ask s).layout.queue.map QueueEntry.port).Nodup ∧ pending (ask s)) ∧
    (let s := withSurface two
     ok s ∧ own (ask s) ∧ ¬shown (ask s) ∧ ¬pending (ask s) ∧ ∀ j ∈ (ask s).engine.jobs, surf ∉ j.handles) ∧
    (let s := withJobs [fillJob .running 1] false (withSurface (runningAt 0 two))
     ok s ∧ own (ask s) ∧ ¬shown (ask s) ∧ ¬pending (ask s) ∧ (ask s).engine.jobs = fillJob .running 1 :: [] ∧
       surf ∈ (fillJob .running 1).handles ∧ Lawful (ask s) ∧ (ask s).timing.run = .running) ∧
    (let s := submitted [1#16] (withTwoOwners two)
     ok s ∧ own (ask s) ∧ ¬shown (ask s) ∧ ¬pending (ask s) ∧ Lawful (ask s) ∧ (ask s).timing.run = .stopped ∧
       surf ∈ (fillJob .queued 0).handles ∧ surf ∉ ({ fillJob .running 0 with dest := ⟨1, 1#8⟩ } : Job).handles) ∧
    (submitted [1#16] (withTwoOwners two)).layout.queue = [] ++ .transaction (entry [1#16]) :: [] := by
  refine ⟨⟨?_, ?_⟩, ⟨?_, ?_, ?_⟩, ⟨?_, ?_, ?_, ?_⟩, ⟨?_, ?_, ?_, ?_, ?_⟩, ⟨?_, ?_, ?_, ?_, ?_, ?_, ?_, ?_⟩,
    ⟨?_, ?_, ?_, ?_, ?_, ?_, ?_, ?_⟩, ?_⟩
  all_goals
    first
    | decide +kernel
    | exact admitted_of_check (by decide +kernel)
    | exact lawful_of_check (by decide +kernel)
    | exact ⟨surfBand, List.mem_singleton_self _, 0, 1, rfl⟩
    | exact ⟨_, List.mem_singleton_self _, rfl, _, List.mem_singleton_self _, Or.inl ⟨0, rfl⟩⟩
    | (rintro ⟨b, hb, -⟩; exact absurd hb (List.not_mem_nil))
    | (rintro ⟨t, ht, -, d, hd, h⟩
       cases List.mem_singleton.1 ht
       cases List.mem_singleton.1 hd
       rcases h with ⟨_, h⟩ | ⟨_, _, _, h, _⟩ <;> cases h)

theorem test_witness_SurfInfoReports :
    (let s := asks .p1 .surfInfo (putHandle surf) (withSurface two)
     admits s .p1 .surfInfo (putHandle surf) = true ∧ (s.alloc.table.get surf.index).state ≠ .free ∧
       (s.alloc.table.get surf.index).gen = surf.gen ∧ (s.alloc.table.get surf.index).owner = .p1) ∧
    (let s := asks .p1 .surfInfo (putHandle surf) two
     admits s .p1 .surfInfo (putHandle surf) = true ∧ ¬((s.alloc.table.get surf.index).state ≠ .free)) := by decide +kernel

theorem test_witness_PixelAccessIsPosted :
    let write (s : State) (offset : Nat) (data : List Byte) :=
      admits (asks .p1 .pixWrite (putHandle surf ++ put24 offset ++ data) s) .p1 .pixWrite
        (putHandle surf ++ put24 offset ++ data)
    let read (s : State) (offset count : Nat) :=
      admits (asks .p1 .pixRead (putHandle surf ++ put24 offset ++ put16 count) s) .p1 .pixRead
        (putHandle surf ++ put24 offset ++ put16 count)
    let e := (withSurface two).alloc.table.get surf.index
    (16777215 < 16777216 ∧ e.state = .live ∧ e.gen = surf.gen ∧ e.owner = .p1 ∧ e.stride * e.height = 32) ∧
    (two.alloc.table.get surf.index).state ≠ .live ∧
    write two 0 [1#8] = true ∧ write (withSurface two) 0 [] = true ∧ write (withSurface two) 32 [1#8] = true ∧
    write (withSurface two) 31 (List.replicate 256 1#8) = true ∧ (List.replicate 256 1#8).length ≤ 256 ∧
    read two 0 1 = true ∧ (∀ n ∈ [0, 257, 65535], read (withSurface two) 0 n = true) ∧
    read (withSurface two) 32 1 = true ∧ (∀ n ∈ [1, 256], read (withSurface two) 31 n = true) := by decide +kernel

theorem test_witness_no_such_index :
    let ask (k : Kind) (place : Nat) (pl : List Byte) :=
      admits (asks .p1 k pl two) .p1 k pl = true ∧ k.payloadRange.1 ≤ pl.length ∧ pl.length ≤ k.payloadRange.2 ∧
        31 < num8 pl place
    ∀ i ∈ [32#8, 255#8],
      ask .surfFree 0 [i, 1#8] ∧ ask .surfInfo 0 [i, 1#8] ∧ ask .pixWrite 0 [i, 1#8, 0#8, 0#8, 0#8] ∧
        ask .pixRead 0 [i, 1#8, 0#8, 0#8, 0#8, 1#8, 0#8] ∧
        ask .jobFill 1 ([5#8, i] ++ List.replicate 11 1#8) ∧ ask .jobCopy 1 ([5#8, i] ++ List.replicate 15 1#8) ∧
        ask .jobCopy 7 (List.replicate 7 1#8 ++ [i] ++ List.replicate 9 1#8) := by decide +kernel

theorem test_witness_QuotaIsReplaced :
    (∀ b ∈ [3#8, 4#8], ∀ n ∈ [256, 257],
      admits (asks .p0 .supQuota ([b] ++ put16 n) two) .p0 .supQuota ([b] ++ put16 n) = true) ∧
    3 < (4#8 : Byte).toNat ∧ (3#8 : Byte).toNat = Port.p3.toNat := by decide +kernel

/-- P1 holds the whole palette, or its first 16 entries. -/
def holding (size : Nat) (s : State) : State :=
  s.setPalRecord .p1 { grant := some { base := 0, size := size }, cursor := some ⟨0, .red⟩, unpublished := false }

theorem test_witness_PalGrantTakesTheLowestBase :
    let clear (s : State) (base n : Nat) : Prop :=
      ∀ q g, (s.pal.records.get q).grant = some g → base + n ≤ g.base ∨ g.base + g.size ≤ base
    let ask (size : Nat) (s : State) := asks .p0 .palGrant (put16 size) s
    let ok (size : Nat) (s : State) := Admitted (ask size s) .p0 .palGrant (put16 size)
    let sizes := [2, 4, 8, 16, 32, 64, 128, 256]
    (ok 65535 two ∧ 65535 < 65536 ∧ 65535 ∉ sizes) ∧
    (let s := asks .p1 .palGrant (put16 2) (holding 16 two)
     Admitted s .p1 .palGrant (put16 2) ∧ 2 ∈ sizes ∧ (s.pal.records.get .p1).grant = some { base := 0, size := 16 }) ∧
    (ok 2 (holding 256 two) ∧ ((ask 2 (holding 256 two)).pal.records.get .p0).grant = none ∧
      (∀ i, i < 256 / 2 → ¬clear (ask 2 (holding 256 two)) (i * 2) 2) ∧
      (∀ n ∈ sizes, (∃ i, i < 256 / n ∧ clear (ask 2 (holding 256 two)) (i * n) n) → n ≤ 0)) ∧
    (ok 256 two ∧ ((ask 256 two).pal.records.get .p0).grant = none ∧ 0 < 256 / 256 ∧ clear (ask 256 two) (0 * 256) 256) ∧
    (ok 16 (holding 16 two) ∧ 1 < 256 / 16 ∧ clear (ask 16 (holding 16 two)) (1 * 16) 16 ∧
      ∀ j, j < 1 → ¬clear (ask 16 (holding 16 two)) (j * 16) 16) := by
  refine ⟨⟨?_, ?_, ?_⟩, ⟨?_, ?_, ?_⟩, ⟨?_, ?_, ?_, ?_⟩, ⟨?_, ?_, ?_, ?_⟩, ?_, ?_, ?_, ?_⟩
  all_goals
    first
    | decide +kernel
    | exact admitted_of_check (by decide +kernel)
    | skip
  · intro i hi h
    rcases h .p1 { base := 0, size := 256 } rfl with h | h <;> (simp at h; try omega)
  · rintro n hn ⟨i, hi, h⟩
    have hpos : 0 < n := by
      rcases Nat.eq_zero_or_pos n with h0 | h0
      · subst h0; exact absurd hn (by decide)
      · exact h0
    have hlt : i * n < 256 := Nat.lt_of_lt_of_le (Nat.mul_lt_mul_of_pos_right hi hpos) (Nat.div_mul_le_self 256 n)
    rcases h .p1 { base := 0, size := 256 } rfl with h | h <;> (simp at h; try omega)
  · intro q g h; cases q <;> cases h
  · intro q g h; cases q <;> cases h; exact Or.inr (by decide)
  · intro j hj h
    rcases h .p1 { base := 0, size := 16 } rfl with h | h <;> (simp at h; try omega)

theorem test_witness_PalReleaseAndSeekAct :
    (let s := asks .p1 .palRelease [] (submitted [] (runningAt 0 (withGrant ⟨0, .red⟩ two)))
     Admitted s .p1 .palRelease [] ∧ Submitted s .p1) ∧
    (let s := asks .p1 .palRelease [] two
     Admitted s .p1 .palRelease [] ∧ ¬Submitted s .p1 ∧ (s.pal.records.get .p1).grant = none) ∧
    (let s := asks .p1 .palRelease [] (withBand surfBand 0 (withGrant ⟨0, .red⟩ (withSurface two)))
     Admitted s .p1 .palRelease [] ∧ ¬Submitted s .p1 ∧ (s.pal.records.get .p1).grant = some { base := 16, size := 16 } ∧
       ∃ b ∈ s.layout.active.bands, b.key.owner = .p1 ∧
         ∃ h x y, b.part = .surface h x y ∧ (s.alloc.table.get h.index).depth ≠ .d16) ∧
    (let s := asks .p1 .palRelease [] (withGrant ⟨0, .red⟩ two)
     Admitted s .p1 .palRelease [] ∧ ¬Submitted s .p1 ∧ (s.pal.records.get .p1).grant = some { base := 16, size := 16 } ∧
       ¬∃ b ∈ s.layout.active.bands, b.key.owner = .p1 ∧
         ∃ h x y, b.part = .surface h x y ∧ (s.alloc.table.get h.index).depth ≠ .d16) ∧
    (let s := asks .p1 .palSeek [15#8] (submitted [] (runningAt 0 (withGrant ⟨0, .red⟩ two)))
     Admitted s .p1 .palSeek [15#8] ∧ Submitted s .p1) ∧
    (Admitted (asks .p1 .palSeek [0#8] two) .p1 .palSeek [0#8] ∧ ¬Submitted (asks .p1 .palSeek [0#8] two) .p1) ∧
    (let s := asks .p1 .palSeek [16#8] (withGrant ⟨3, .blue⟩ two)
     Admitted s .p1 .palSeek [16#8] ∧ ¬Submitted s .p1 ∧ (s.pal.records.get .p1).grant = some { base := 16, size := 16 }) ∧
    (let s := asks .p1 .palSeek [15#8] (withGrant ⟨3, .blue⟩ two)
     Admitted s .p1 .palSeek [15#8] ∧ ¬Submitted s .p1 ∧ (15#8 : Byte).toNat < 16) := by
  refine ⟨⟨?_, ?_⟩, ⟨?_, ?_, ?_⟩, ⟨?_, ?_, ?_, ?_⟩, ⟨?_, ?_, ?_, ?_⟩, ⟨?_, ?_⟩, ⟨?_, ?_⟩, ⟨?_, ?_, ?_⟩, ?_, ?_, ?_⟩
  all_goals
    first
    | decide +kernel
    | exact admitted_of_check (by decide +kernel)
    | exact submitted_of_check (by decide +kernel)
    | exact notSubmitted_of_check (by decide +kernel)
    | exact ⟨surfBand, List.mem_singleton_self _, rfl, surf, 0, 1, rfl, by decide +kernel⟩
    | (rintro ⟨b, hb, -⟩; exact absurd hb (List.not_mem_nil))

theorem test_witness_PalWriteStoresComponents :
    ∀ place ∈ [0, 47, 48], ∀ n ∈ [0, 1, 240, 241],
      let bytes : List Byte := List.replicate n 0xFF#8
      let s := asks .p1 .palWrite bytes (withGrant (cursorAt place) two)
      Admitted s .p1 .palWrite bytes ∧ bytes.length ≤ 261 ∧ ¬Submitted s .p1 ∧
        (s.pal.records.get .p1).grant = some { base := 16, size := 16 } ∧ place ≤ 3 * 16 ∧
        (s.pal.records.get .p1).cursor = some (cursorAt place) := by
  intro place hp n hn
  refine ⟨admitted_of_check ?_, ?_, notSubmitted_of_check ?_, rfl, ?_, rfl⟩
  all_goals revert place n; decide +kernel

theorem test_witness_palette_refusals :
    (let s := asks .p1 .palWrite [1#8] (submitted [] (runningAt 0 two))
     Admitted s .p1 .palWrite [1#8] ∧ Submitted s .p1) ∧
    (let s := asks .p1 .palWrite [1#8] two
     Admitted s .p1 .palWrite [1#8] ∧ ¬Submitted s .p1 ∧ (s.pal.records.get .p1).grant = none) ∧
    (let s := asks .p1 .palRead [1#8] (submitted [] (runningAt 0 two))
     Admitted s .p1 .palRead [1#8] ∧ Submitted s .p1) ∧
    (let s := asks .p1 .palRead [1#8] two
     Admitted s .p1 .palRead [1#8] ∧ ¬Submitted s .p1 ∧ (s.pal.records.get .p1).grant = none) := by
  refine ⟨⟨?_, ?_⟩, ⟨?_, ?_, ?_⟩, ⟨?_, ?_⟩, ?_, ?_, ?_⟩
  all_goals
    first
    | decide +kernel
    | exact admitted_of_check (by decide +kernel)
    | exact submitted_of_check (by decide +kernel)
    | exact notSubmitted_of_check (by decide +kernel)

theorem test_witness_PalReadReturnsComponents :
    ∀ place ∈ [0, 47, 48], ∀ n ∈ [0#8, 1#8, 240#8, 241#8],
      let s := asks .p1 .palRead [n] (withGrant (cursorAt place) two)
      Admitted s .p1 .palRead [n] ∧ ¬Submitted s .p1 ∧
        (s.pal.records.get .p1).grant = some { base := 16, size := 16 } ∧ place ≤ 3 * 16 ∧
        (s.pal.records.get .p1).cursor = some (cursorAt place) := by
  intro place hp n hn
  refine ⟨admitted_of_check ?_, notSubmitted_of_check ?_, rfl, ?_, rfl⟩
  all_goals revert place n; decide +kernel

theorem test_witness_EditIsStaged :
    (editRow (.editBandDrop .p1) = some (.p1, 2) ∧ editRow (.editEvictBand .p1) = some (.p1, 12)) ∧
    (let s := asks .p1 .edit [2#8, 7#8] (submitted [] (runningAt 0 two))
     Admitted s .p1 .edit [2#8, 7#8] ∧ num8 [2#8, 7#8] 0 = 2 ∧ Submitted s .p1) ∧
    (let s := asks .p1 .edit [12#8, 7#8] two
     Admitted s .p1 .edit [12#8, 7#8] ∧ num8 [12#8, 7#8] 0 = 12 ∧ ¬Submitted s .p1 ∧ Port.p1 ≠ s.supv) ∧
    (Admitted (asks .p1 .edit [2#8, 8#8] two) .p1 .edit [2#8, 8#8] ∧ parseEdit .p1 [2#8, 8#8] = none) ∧
    (let s := asks .p1 .edit [2#8, 7#8] (two.setStaging .p1 (List.replicate 8 (.bandDrop 0)))
     Admitted s .p1 .edit [2#8, 7#8] ∧ ¬Submitted s .p1 ∧ parseEdit .p1 [2#8, 7#8] = some (.bandDrop 7) ∧
       8 ≤ (s.layout.staging.get .p1).length) ∧
    (let s := asks .p1 .edit [2#8, 7#8] (two.setStaging .p1 (List.replicate 7 (.bandDrop 0)))
     Admitted s .p1 .edit [2#8, 7#8] ∧ ¬Submitted s .p1 ∧ (s.layout.staging.get .p1).length < 8) ∧
    (Admitted (asks .p1 .edit [5#8] two) .p1 .edit [5#8] ∧ ¬Submitted (asks .p1 .edit [5#8] two) .p1 ∧
      num8 [5#8] 0 ∉ [1, 2, 3, 4, 8, 9, 10, 11, 12]) ∧
    (let s := asks .p1 .edit [5#8] (submitted [] (runningAt 0 two))
     Admitted s .p1 .edit [5#8] ∧ Submitted s .p1) := by
  refine ⟨⟨rfl, rfl⟩, ⟨?_, ?_, ?_⟩, ⟨?_, ?_, ?_, ?_⟩, ⟨?_, ?_⟩, ⟨?_, ?_, ?_, ?_⟩, ⟨?_, ?_, ?_⟩, ⟨?_, ?_, ?_⟩, ?_, ?_⟩
  all_goals
    first
    | decide +kernel
    | exact admitted_of_check (by decide +kernel)
    | exact submitted_of_check (by decide +kernel)
    | exact notSubmitted_of_check (by decide +kernel)

theorem test_witness_EditFieldsAreChecked :
    let put (number : Byte) (first count : Nat) (part : Byte) (index : Byte) (x y : Nat) : List Byte :=
      [1#8, number, 2#8] ++ put16 first ++ put16 count ++ [part, index, 1#8] ++ put16 x ++ put16 y ++
        [0#8, 0#8, 0#8, 4#8]
    let ok (pl : List Byte) := num8 pl 1 ≤ 7 ∧ num16 pl 3 ≤ 767 ∧ 1 ≤ num16 pl 5 ∧ num16 pl 5 ≤ 768 ∧
      ((num8 pl 7 = 1 ∧ num8 pl 8 ≤ 31 ∧ num16 pl 10 ≤ 2047 ∧ num16 pl 12 ≤ 1023) ∨ num8 pl 7 = 2)
    (∀ pl ∈ [put 7#8 767 768 1#8 31#8 2047 1023, put 0#8 0 1 2#8 32#8 2048 1024],
      num8 pl 0 = 1 ∧ pl.length = 18 ∧ ok pl) ∧
    (∀ pl ∈ [put 8#8 0 1 1#8 0#8 0 0, put 0#8 768 1 1#8 0#8 0 0, put 0#8 0 0 1#8 0#8 0 0, put 0#8 0 769 1#8 0#8 0 0,
        put 0#8 0 1 3#8 0#8 0 0, put 0#8 0 1 1#8 32#8 0 0, put 0#8 0 1 1#8 0#8 2048 0, put 0#8 0 1 1#8 0#8 0 1024],
      num8 pl 0 = 1 ∧ pl.length = 18 ∧ ¬ok pl) ∧
    (let pl := [2#8, 8#8]; num8 pl 0 = 2 ∧ pl.length = 2 ∧ 7 < num8 pl 1) ∧
    (let pl := [2#8, 7#8]; num8 pl 0 = 2 ∧ (7 : Fin 8).val = num8 pl 1) ∧
    (let pl := [3#8, 7#8] ++ put16 2047 ++ put16 1024; num8 pl 0 = 3 ∧ pl.length = 6 ∧ 1023 < num16 pl 4) ∧
    (let pl := [3#8, 7#8] ++ put16 2047 ++ put16 1023
     num8 pl 0 = 3 ∧ pl.length = 6 ∧ (7 : Fin 8).val = num8 pl 1 ∧ num16 pl 2 ≤ 2047 ∧ num16 pl 4 ≤ 1023) ∧
    (let pl := [4#8, 7#8, 32#8, 1#8]; num8 pl 0 = 4 ∧ pl.length = 4 ∧ 31 < num8 pl 2) ∧
    (let pl := [4#8, 7#8, 31#8, 1#8]; (7 : Fin 8).val = num8 pl 1 ∧ (31 : Fin 32).val = num8 pl 2 ∧ 1#8 = pl.getD 3 0#8) ∧
    (let pl := [8#8] ++ List.replicate 9 0xFF#8; num8 pl 0 = 8 ∧ pl.length = 10) ∧
    (let pl := [9#8, 3#8] ++ put16 5 ++ put16 4; num8 pl 0 = 9 ∧ pl.length = 6 ∧ num16 pl 4 < num16 pl 2) ∧
    (let pl := [9#8, 3#8] ++ put16 767 ++ put16 767
     Port.p3.toNat = num8 pl 1 ∧ num16 pl 2 ≤ num16 pl 4 ∧ num16 pl 4 ≤ 767) ∧
    (let pl := [10#8, 0xFF#8, 0#8, 1#8]; num8 pl 0 = 10 ∧ pl.length = 4) ∧
    (let pl := [11#8, 0xFF#8, 0#8, 1#8]; num8 pl 0 = 11 ∧ pl.length = 4) ∧
    (let pl := [12#8, 4#8, 7#8]; num8 pl 0 = 12 ∧ pl.length = 3 ∧ 3 < num8 pl 1) ∧
    (let pl := [12#8, 3#8, 7#8]; Port.p3.toNat = num8 pl 1 ∧ (7 : Fin 8).val = num8 pl 2) ∧
    (let pl := [12#8, 3#8]; num8 pl 0 = 12 ∧ pl.length ≠ 1 + 2) := by decide +kernel

theorem test_witness_SubmitEntersTheQueue :
    let ask (flag : Byte) (s : State) := asks .p1 .submit [2#8, flag] s
    let ok (flag : Byte) (s : State) := Admitted (ask flag s) .p1 .submit [2#8, flag]
    let staged (s : State) := s.setStaging .p1 [.bandDrop 0]
    (ok 0#8 (submitted [] (runningAt 0 two)) ∧ ∃ e ∈ (ask 0#8 (submitted [] (runningAt 0 two))).layout.queue, e.port = .p1) ∧
    (let s := two.setNotices .p1 { queue := [.committed 1#8 0#16], lost := false, frameSub := false }
     ok 0#8 s ∧ (¬∃ e ∈ (ask 0#8 s).layout.queue, e.port = .p1) ∧
       ∃ n ∈ ((ask 0#8 s).notices.get .p1).queue, n.isOutcome = true) ∧
    (ok 0#8 two ∧ (¬∃ n ∈ ((ask 0#8 two).notices.get .p1).queue, n.isOutcome = true) ∧
      (ask 0#8 two).layout.staging.get .p1 = [] ∧ ((ask 0#8 two).pal.records.get .p1).unpublished = false) ∧
    (ok 2#8 (staged two) ∧ (ask 2#8 (staged two)).layout.staging.get .p1 ≠ [] ∧ 1 < (2#8 : Byte).toNat) ∧
    (ok 0#8 (staged (runningAt 4 two)) ∧ (ask 0#8 (staged (runningAt 4 two))).timing.run = .running) ∧
    (let s := staged (withJobs [fillJob .running 0] false (withSurface two))
     ok 1#8 s ∧ (ask 1#8 s).engine.jobs.filter (fun j => decide (j.owner = .p1)) ≠ [] ∧
       ∀ e ∈ (ask 1#8 s).layout.queue, e.held = true) := by
  refine ⟨⟨?_, ?_⟩, ⟨?_, ?_, ?_⟩, ⟨?_, ?_, ?_, ?_⟩, ⟨?_, ?_, ?_⟩, ⟨?_, ?_⟩, ?_, ?_, ?_⟩
  all_goals first | decide +kernel | exact admitted_of_check (by decide +kernel)

theorem test_witness_SubmitWhileStoppedIsApplied :
    ∀ es ∈ [[Edit.bandDrop 0], [.bandPut (fillBand 4)]], ∀ flag ∈ [0#8, 1#8],
      let s := asks .p1 .submit [2#8, flag] (two.setStaging .p1 es)
      Lawful s ∧ s.timing.run = .stopped ∧ Admitted s .p1 .submit [2#8, flag] ∧
        (∀ e ∈ s.layout.queue, e.port ≠ .p1) ∧ (∀ n ∈ (s.notices.get .p1).queue, n.isOutcome = false) ∧
        s.layout.staging.get .p1 ≠ [] ∧ flag.toNat ≤ 1 ∧ ∀ j ∈ s.engine.jobs, j.owner ≠ .p1 := by
  intro es he flag hf
  refine ⟨lawful_of_check ?_, rfl, admitted_of_check ?_, ?_, ?_, ?_, ?_, ?_⟩
  all_goals revert es flag; decide +kernel

theorem test_witness_EditsActOnTheCopy :
    let t := Tentative.start (withBand surfBand 0 two).layout.active
    let f := Tentative.start (withBand (fillBand 0) 0 two).layout.active
    (∀ b ∈ t.copy.bands, b.key ≠ ⟨.p1, 1⟩) ∧ (∃ b ∈ t.copy.bands, b.key = ⟨.p1, 0⟩) ∧
    (t.copy.bands.map Band.key).Nodup ∧ surfBand ∈ t.copy.bands ∧ surfBand.part = .surface surf 0 1 ∧
    fillBand 0 ∈ f.copy.bands ∧ (fillBand 0).part = .fill ⟨1#6, 2#6, 3#6⟩ ∧
    (let r : Region := { top := 2, bottom := 5 }
     surfBand.key.owner = .p1 ∧ ¬(r.top ≤ surfBand.first ∧ surfBand.first + surfBand.count ≤ r.bottom + 1)) := by
  decide +kernel

/-- The premise of the statement, and a layout for each outcome: passing, one band's failure, and each check on the whole. -/
theorem test_witness_ValidationTakesTheFirstFailure :
    let l := (runningAt 0 (withBand (fillBand 0) 0 two)).layout.active
    let many := (List.finRange 8).map fun i => { fillBand 0 with key := ⟨.p1, i⟩, first := 2 * i.val, count := 1 }
    (∀ b ∈ l.bands, 1 ≤ b.count) ∧ (∀ b ∈ many, 1 ≤ b.count) ∧
    validate two l = none ∧
    validate two { l with bands := [{ fillBand 0 with count := 4 }] } = some (.panelBounds, some ⟨.p1, 0⟩) ∧
    validate two { l with bands := many ++ [{ fillBand 0 with first := 20 }], timing := { l.timing with vdl := 40 } } =
      some (.bandLimit, none) ∧
    validate two { l with timing := { l.timing with hdw := 1032 } } = some (.range, none) := by decide +kernel

theorem test_witness_RecallAndAbandon :
    (let s := asks .p1 .recall [] (submitted [] (runningAt 0 two))
     Admitted s .p1 .recall [] ∧ s.layout.record.get .p1 = .queued ∧
       s.layout.queue = [] ++ .transaction (entry []) :: [] ∧ (entry []).port = .p1) ∧
    (∀ r ∈ [SubmitRecord.applied, .noSubmit, .recalled],
      admits (asks .p1 .recall [] (two.setRecord .p1 r)) .p1 .recall [] = true ∧
        (asks .p1 .recall [] (two.setRecord .p1 r)).layout.record.get .p1 = r) ∧
    (Admitted (asks .p1 .abandon [] (submitted [] (runningAt 0 two))) .p1 .abandon [] ∧
      Submitted (asks .p1 .abandon [] (submitted [] (runningAt 0 two))) .p1) ∧
    (Admitted (asks .p1 .abandon [] two) .p1 .abandon [] ∧ ¬Submitted (asks .p1 .abandon [] two) .p1) := by
  refine ⟨⟨?_, ?_, ?_, ?_⟩, ?_, ⟨?_, ?_⟩, ?_, ?_⟩
  all_goals
    first
    | decide +kernel
    | exact admitted_of_check (by decide +kernel)
    | exact submitted_of_check (by decide +kernel)
    | exact notSubmitted_of_check (by decide +kernel)

theorem test_witness_TouchRefreshes : ∀ set ∈ [0#8, 1#8, 0xFF#8],
    admits (asks .p1 .touch [set] (withBand (fillBand 3) 2 two)) .p1 .touch [set] = true := by decide +kernel

theorem test_witness_JobsAreAdmitted :
    let fill (dx value : Nat) := [5#8] ++ putHandle surf ++ put16 dx ++ put16 1 ++ put16 3 ++ put16 2 ++ put16 value
    let copy (f : Handle) (sy dy : Nat) :=
      [5#8] ++ putHandle f ++ put16 0 ++ put16 sy ++ putHandle surf ++ put16 0 ++ put16 dy ++ put16 3 ++ put16 2
    let okFill (dx value : Nat) (s : State) := Admitted (asks .p1 .jobFill (fill dx value) s) .p1 .jobFill (fill dx value)
    let okCopy (f : Handle) (sy dy : Nat) (s : State) :=
      Admitted (asks .p1 .jobCopy (copy f sy dy) s) .p1 .jobCopy (copy f sy dy)
    let own (s : State) (h : Handle) := NamesLive s h ∧ (s.alloc.table.get h.index).owner = .p1
    let deep := (withSurface two).setEntry 1 { (withSurface two).alloc.table.get 0 with depth := .d4 }
    (okFill 5 255 two ∧ ¬own two surf) ∧
    (own (withSurface two) surf ∧ okFill 6 255 (withSurface two) ∧ okFill 5 256 (withSurface two) ∧
      okFill 5 255 (withSurface two) ∧ 5 + 3 ≤ 8 ∧ 255 < 2 ^ Depth.d8.bits ∧ ¬(6 + 3 ≤ 8) ∧ ¬(256 < 2 ^ Depth.d8.bits) ∧
      ((withSurface two).alloc.table.get 0).width = 8 ∧ ((withSurface two).alloc.table.get 0).depth = .d8) ∧
    (okCopy ⟨2, 1#8⟩ 0 1 (withSurface two) ∧ ¬own (withSurface two) ⟨2, 1#8⟩) ∧
    (okCopy ⟨1, 1#8⟩ 0 1 deep ∧ own deep surf ∧ own deep ⟨1, 1#8⟩ ∧
      (deep.alloc.table.get 1).depth ≠ (deep.alloc.table.get 0).depth) ∧
    (okCopy surf 3 1 (withSurface two) ∧ ¬(3 + 2 ≤ ((withSurface two).alloc.table.get 0).height)) ∧
    (okCopy surf 0 2 (withSurface two) ∧ 2 + 2 ≤ ((withSurface two).alloc.table.get 0).height ∧
      (withSurface two).engine.jobs = []) ∧
    (let held (n : Nat) := withJobs (List.replicate n (fillJob .running 0)) false (withSurface two)
     okFill 5 255 (held 1) ∧ (fillJob .running 0).tag = 5#8 ∧
       okFill 5 255 (held 4) ∧ 4 ≤ ((held 4).engine.jobs.filter fun k => decide (k.owner = .p1)).length) ∧
    (let others := withJobs [{ fillJob .running 0 with owner := .p0, tag := 9#8 }] false (withSurface two)
     okFill 5 255 others ∧ ∃ k ∈ others.engine.jobs, k.state ≠ .queued) := by
  refine ⟨⟨?_, ?_⟩, ⟨?_, ?_, ?_, ?_, ?_, ?_, ?_, ?_, ?_, ?_⟩, ⟨?_, ?_⟩, ⟨?_, ?_, ?_, ?_⟩, ⟨?_, ?_⟩, ⟨?_, ?_, ?_⟩,
    ⟨?_, ?_, ?_, ?_⟩, ?_, ?_⟩
  all_goals
    first
    | decide +kernel
    | exact admitted_of_check (by decide +kernel)
    | (unfold NamesLive; decide +kernel)

theorem test_witness_JobCancelActs :
    let ask (s : State) := asks .p1 .jobCancel [5#8] s
    let ok (s : State) := Admitted (ask s) .p1 .jobCancel [5#8]
    (ok two ∧ ∀ j ∈ (ask two).engine.jobs, j.owner = .p1 → j.tag ≠ 5#8) ∧
    (let first := { fillJob .running 0 with owner := .p0, dest := ⟨1, 1#8⟩ }
     let j := { fillJob .queued 0 with arrival := 1#16 }
     ∀ s ∈ [withTwoOwners (runningAt 0 two), withTwoOwners two, submitted [1#16] (withTwoOwners two)],
       ok s ∧ (ask s).engine.jobs = [first] ++ j :: [] ∧ Lawful (ask s) ∧
         ∀ k ∈ [first] ++ [], ¬(k.owner = .p1 ∧ k.tag = 5#8)) ∧
    (let s := submitted [1#16] (withTwoOwners two)
     s.timing.run = .stopped ∧ toldQueue s { fillJob .queued 0 with arrival := 1#16 } =
       [] ++ .transaction (entry []) :: []) ∧
    (let s := withJobs [fillJob .running 1] false (withSurface two)
     ok s ∧ (ask s).engine.jobs = [] ++ fillJob .running 1 :: [] ∧ NamedBy (ask s) (fillJob .running 1) 0 ∧
       ¬NamedBy (ask s) (fillJob .running 1) 1) ∧
    (let s := aborting (withJobs [fillJob .aborting 1] true (withSurface two))
     ok s ∧ (ask s).engine.jobs = [] ++ fillJob .aborting 1 :: []) := by
  refine ⟨⟨?_, ?_⟩, ?_, ⟨?_, ?_⟩, ⟨?_, ?_, ?_, ?_⟩, ?_, ?_⟩
  · exact admitted_of_check (by decide +kernel)
  · decide +kernel
  · intro first j s hs
    refine ⟨admitted_of_check ?_, ?_, lawful_of_check ?_, ?_⟩
    all_goals revert s; decide +kernel
  all_goals
    first
    | decide +kernel
    | exact admitted_of_check (by decide +kernel)
    | (unfold NamedBy; decide +kernel)

theorem test_witness_VoteActsOnDemand :
    (∀ v ∈ [0#8, 1#8, 2#8], admits (asks .p1 .vote [v] two) .p1 .vote [v] = true) ∧
    (two.power.state = .dark ∧ two.timing.run = .stopped ∧ demand two = false ∧
      demand { two with power := { two.power with votes := two.power.votes.set .p1 (some .on) } } = true ∧
      demand { two with power := { two.power with votes := two.power.votes.set .p1 (some .off) } } = false) ∧
    (let s := runningAt 2 two
     admits (asks .p0 .vote [0#8] s) .p0 .vote [0#8] = true ∧ s.power.state = .logicLead ∧ s.timing.run = .running ∧
       s.power.stopRequested = false ∧ demand s = true ∧
       demand { s with power := { s.power with votes := s.power.votes.set .p0 (some .off) } } = false) := by decide +kernel

theorem test_witness_InhibitAndPowerTimes :
    (∀ v ∈ [0#8, 1#8, 2#8], admits (asks .p0 .supInhibit [v] two) .p0 .supInhibit [v] = true) ∧
    (let s := runningAt 2 two
     let s := { s with power := { s.power with state := .logicHeld, inhibit := true } }
     admits (asks .p0 .supInhibit [0#8] s) .p0 .supInhibit [0#8] = true ∧ demand s = true) ∧
    (∀ t ∈ [0#8, 1#8, 255#8], admits (asks .p0 .supPowerTimes [0#8, t] two) .p0 .supPowerTimes [0#8, t] = true) := by
  decide +kernel

/-- A state whose arbiter has a line fetch waiting, and one that has it in service. -/
def fetching : State :=
  after .lineStart (runningAt 0 (withBand surfBand 0 (withGrant ⟨0, .red⟩ (withSurface two))))

theorem test_witness_ArbiterGrants :
    ((withJobs [fillJob .running 1] true (withSurface two)).arb.busy ≠ none) ∧
    (fetching.arb.busy = none ∧ fetching.arb.lineFetch.any (fun f => decide (f.addr + f.len ≤ 524288)) = true) ∧
    (two.arb.busy = none ∧ two.arb.lineFetch = none ∧ two.arb.engineRow = false ∧ two.arb.ports = []) ∧
    ((waiting two).arb.busy = none ∧ (waiting two).arb.lineFetch = none ∧
      (waiting two).arb.ports = { port := .p1, addr := 0, op := .write [0xAA#8], status := .ok } :: [] ∧
      (waiting two).arb.engineRow = false) ∧
    (let s := after (.pixRead .p1) (asks .p1 .pixRead [0#8, 1#8, 31#8, 0#8, 0#8, 1#8, 0#8] (withSurface two))
     s.arb.ports = { port := .p1, addr := 31, op := .read 1, status := .ok } :: [] ∧ s.arb.busy = none ∧
       s.arb.turn = .ports) ∧
    (let s := withJobs [fillJob .running 1] false (withSurface two)
     s.arb.busy = none ∧ s.arb.lineFetch = none ∧ s.arb.engineRow = true ∧ s.engine.jobs ≠ [] ∧ s.arb.ports = [] ∧
       Lawful s) := by
  refine ⟨?_, ?_, ?_, ?_, ?_, ?_, ?_, ?_, ?_, ?_, ?_⟩
  all_goals first | decide +kernel | exact lawful_of_check (by decide +kernel)

theorem test_witness_GrantedRowWritesItsPixels : ∀ j ∈ [fillJob .running 1, copyJob .running 0],
    let s := withJobs [j] false (withSurface two)
    Lawful s ∧ s.arb.busy = none ∧ s.arb.lineFetch = none ∧ s.arb.engineRow = true ∧ s.engine.jobs = j :: [] ∧
      s.arb.ports = [] ∧ j.dx < (s.alloc.table.get j.dest.index).width := by
  intro j hj
  refine ⟨lawful_of_check ?_, rfl, rfl, rfl, rfl, rfl, ?_⟩
  all_goals revert j; decide +kernel

theorem test_witness_AccessesComplete :
    ((after .frameStoreGrant (waiting two)).arb.busy = some (.portAccess .p1 .ok (put16 1) true)) ∧
    ((after (.portReset .p1 []) (after .frameStoreGrant (waiting two))).arb.busy =
      some (.portAccess .p1 .ok (put16 1) false)) ∧
    (match (after .frameStoreGrant fetching).arb.busy with
     | some (.lineFetch f bytes) => decide (bytes.length = pixelSpan f.depth 8 ∧ 8 ∣ 8)
     | _ => false) = true := by decide +kernel

theorem test_witness_RowCompletionCounts_orphan :
    (after (.deviceReset .p0) (asks .p0 .deviceReset [] (withJobs [fillJob .running 1] true (withSurface two)))).arb.busy =
      some (.engineRow true) := by decide +kernel

theorem test_witness_RowCompletionCounts :
    (∀ j ∈ [fillJob .running 0, fillJob .running 1],
      let s := withJobs [j] true (withSurface (runningAt 0 two))
      Lawful s ∧ s.engine.jobs = j :: [] ∧ s.arb.busy = some (.engineRow false) ∧ s.timing.run = .running) ∧
    ((fillJob .running 0).rowsDone + 1 < (fillJob .running 0).h ∧ (fillJob .running 1).rowsDone + 1 = (fillJob .running 1).h) ∧
    (let s := aborting (withJobs [fillJob .aborting 0] true (withSurface (runningAt 0 two)))
     Lawful s ∧ s.arb.busy = some (.engineRow false) ∧ NamedBy s (fillJob .aborting 0) 0 ∧
       ¬(s.alloc.table.get 0).state = .retiring) ∧
    (let s := after (.surfFree .p1) (asks .p1 .surfFree (putHandle surf)
       (withJobs [fillJob .running 0] true (withSurface (runningAt 0 two))))
     Lawful s ∧ s.engine.jobs = fillJob .aborting 0 :: [] ∧ s.arb.busy = some (.engineRow false) ∧
       NamedBy s (fillJob .aborting 0) 0 ∧ (s.alloc.table.get 0).state = .retiring ∧
       s.alloc.withdrawalOut.get (s.alloc.table.get 0).owner = false) ∧
    (let s := after (.closeSession .p1) (asks .p1 .closeSession []
       (withJobs [fillJob .running 0] true (withSurface two)))
     (s.sessions.get .p1).state = .closing ∧ (s.sessions.get .p1).withdrawalPending = false ∧
       (s.alloc.table.get 0).state = .retiring) ∧
    (∀ s ∈ [submitted [0#16] (withJobs [fillJob .running 1] true (withSurface two)),
        submitted [0#16] (aborting (withJobs [fillJob .aborting 0] true (withSurface two)))],
      lawfulCheck s = true ∧ s.timing.run = .stopped ∧ s.arb.busy = some (.engineRow false) ∧
        toldQueue s (fillJob .running 1) = [] ++ .transaction (entry []) :: []) := by
  refine ⟨?_, ⟨?_, ?_⟩, ⟨?_, ?_, ?_, ?_⟩, ⟨?_, ?_, ?_, ?_, ?_, ?_⟩, ?_, ?_⟩
  · intro j hj
    refine ⟨lawful_of_check ?_, rfl, rfl, rfl⟩
    revert j; decide +kernel
  all_goals
    first
    | decide +kernel
    | exact lawful_of_check (by decide +kernel)
    | (unfold NamedBy; decide +kernel)

theorem test_witness_LinesAreProducedInOrder :
    ((runningAt 2 two).timing.run = .running ∧ (runningAt 2 two).timing.part = .display ∧
      (runningAt 2 two).timing.line + 1 < (runningAt 2 two).timing.active.vdl) ∧
    ((runningAt 4 two).timing.part = .display ∧ (runningAt 4 two).timing.active.vdl < (runningAt 4 two).timing.line + 1 ∧
      (runningAt 4 two).timing.line + 1 < (runningAt 4 two).timing.active.vdl + (runningAt 4 two).timing.active.vnd) ∧
    (after .lineStart (runningAt 4 two)).timing.part = .sync ∧
    (after .backPorchStart (after .lineStart (runningAt 4 two))).timing.part = .backPorch ∧
    (after .backPorchStart (after .lineStart (runningAt 4 two))).scan ≠ .awaiting ∧
    (let b := surfBand
     let l := (runningAt 0 (withBand b 0 two)).layout.active
     b ∈ l.bands ∧ b.covers 1 = true ∧ b.covers 3 = false ∧ ∀ b' ∈ l.bands, b'.covers 1 = true → b' = b) := by
  decide +kernel

theorem test_witness_OutputsFollowTheTables :
    two.timing.run = .stopped ∧ Lawful (runningAt 2 two) ∧ (runningAt 2 two).timing.run = .running ∧
      (runningAt 2 two).timing.part = .display ∧ (runningAt 2 two).timing.period = .display ∧
      (runningAt 2 two).scan = .fixed (List.replicate 8 Colour.black) := by
  refine ⟨?_, ?_, ?_, ?_, ?_, ?_⟩
  all_goals first | decide +kernel | exact lawful_of_check (by decide +kernel)

theorem test_witness_FrameStartAgesTheBands :
    let s := runningAt 5 (withBand (fillBand 3) 2 two)
    s.timing.run = .running ∧ s.timing.part = .display ∧
      s.timing.line + 1 = s.timing.active.vdl + s.timing.active.vnd ∧ s.timing.stopPending = false ∧
      ({ key := ⟨.p1, 0⟩, age := 2, mark := false } : FreshRecord) ∈ s.fresh.records ∧
      1 ≤ limitOf s.layout.active.bands ⟨.p1, 0⟩ ∧ 2 + 1 = limitOf s.layout.active.bands ⟨.p1, 0⟩ := by decide +kernel

theorem test_witness_VblankAppliesTheQueue :
    (∀ s ∈ [runningAt 3 two, submitted [] (runningAt 3 (withBand (fillBand 4) 0 two)), leaving (runningAt 3 two),
        (runningAt 3 two).setNotices .p1 { queue := [], lost := false, frameSub := true }],
      lawfulCheck s = true ∧ s.timing.run = .running ∧ s.timing.part = .display ∧
        s.timing.line + 1 = s.timing.active.vdl) ∧
    (submitted [] (runningAt 3 two)).layout.queue = [] ++ .transaction (entry []) :: [] ∧ (entry []).awaited = [] ∧
    (leaving (runningAt 3 two)).layout.queue = [] ++ .withdrawal .p1 :: [] ∧
    (two.sessions.get (entry []).port).state = .opened ∧ (two.pal.records.get (entry []).port).unpublished = false ∧
    (QueueEntry.transaction (entry [1#16])).held = true ∧
    ((leaving two).sessions.get .p1).state = .closing ∧ ((leaving two).sessions.get .p1).surfacesPending = true ∧
    (leaving two).alloc.reportOwed.get .p1 = true := by decide +kernel

theorem test_witness_VblankDrivesThePower :
    (let s := { runningAt 3 two with power := { (runningAt 3 two).power with frameCount := 1 } }
     s.timing.run = .running ∧ s.timing.part = .display ∧ s.timing.line + 1 = s.timing.active.vdl ∧
       s.power.state = .logicLead ∧ s.power.stopRequested = false ∧ s.power.target ≤ s.power.frameCount + 1) ∧
    (let s := { runningAt 3 two with power := { (runningAt 3 two).power with state := .logicTail, frameCount := 1 } }
     s.power.state = .logicTail ∧ s.power.stopRequested = false ∧ s.power.target ≤ s.power.frameCount + 1) := by
  decide +kernel

theorem test_witness_TimingStopsAtTheFrameEnd : ∀ v ∈ [Vote.off, .on],
    let s := stopping v (runningAt 5 two)
    Lawful s ∧ s.timing.run = .running ∧ s.timing.part = .display ∧
      s.timing.line + 1 = s.timing.active.vdl + s.timing.active.vnd ∧ s.timing.stopPending = true ∧
      demand s = decide (v = .on) := by
  intro v hv
  refine ⟨lawful_of_check ?_, ?_, ?_, ?_, ?_, ?_⟩
  all_goals revert v; decide +kernel

/-- What the invariants share: a lawful state with a surface, a job in service, a band and a grant, and a step from it. -/
def busyState : State :=
  { withJobs [fillJob .running 0] true (withBand (fillBand 4) 1 (withGrant ⟨0, .red⟩ (withSurface (runningAt 0 two)))) with
    store := [(18, 9#8)], pending := [.rowCompletion, .frameStoreGrant] }

theorem test_witness_busyState : Lawful busyState ∧ ∃ t, step busyState = .next t :=
  ⟨lawful_of_check (by decide +kernel), ⟨_, rfl⟩⟩

theorem test_witness_StoreKeepsItsForm : Memory.wf busyState.store = true ∧ ∃ t, step busyState = .next t :=
  ⟨by decide +kernel, test_witness_busyState.2⟩

theorem test_witness_LinksStayInOrder : LinkLaw busyState ∧ ∃ t, step busyState = .next t :=
  ⟨test_witness_busyState.1.link, test_witness_busyState.2⟩

theorem test_witness_BlocksStayAccounted : AllocLaw busyState.alloc ∧ ∃ t, step busyState = .next t :=
  ⟨test_witness_busyState.1.alloc, test_witness_busyState.2⟩

theorem test_witness_GrantsStayApart :
    ((∀ p q, p ≠ q → GrantsApart (grantOf busyState p) (grantOf busyState q)) ∧
      ∀ p g, grantOf busyState p = some g →
        GrantOk g ∧ ∀ c, (busyState.pal.records.get p).cursor = some c → CursorOk g c) ∧
    ∃ t, step busyState = .next t :=
  ⟨⟨test_witness_busyState.1.palette.apart, fun p g h =>
    ⟨((test_witness_busyState.1.palette.record p).grant g h).1,
      fun c hc => (test_witness_busyState.1.palette.record p).cursorIn g c h hc⟩⟩, test_witness_busyState.2⟩

theorem test_witness_LayoutStaysValid :
    (LayoutOk busyState.layout.active ∧ (∀ p, EditsOk p (busyState.layout.staging.get p)) ∧
      ∀ e ∈ busyState.layout.queue, EntryEditsOk e) ∧ ∃ t, step busyState = .next t :=
  ⟨⟨test_witness_busyState.1.layout.active, test_witness_busyState.1.layout.staged,
    test_witness_busyState.1.layout.queued⟩, test_witness_busyState.2⟩

theorem test_witness_TimingAndPowerAgree :
    TimingLaw busyState ∧ PowerLaw busyState ∧ ∃ t, step busyState = .next t :=
  ⟨test_witness_busyState.1.timing, test_witness_busyState.1.power, test_witness_busyState.2⟩

theorem test_witness_EveryStepKeepsTheLaws : Lawful busyState ∧ ∃ t, step busyState = .next t := test_witness_busyState

theorem test_witness_NoStepStops : Lawful busyState := test_witness_busyState.1

end Sys2Proof.Tests
end

section
/-! PROOFS. Requests that the session manager admits, and SURF_INFO (R63). -/

namespace Sys2Proof.Machine

/-! ### Admitted requests -/

theorem isSupervisorKind_iff (k : Kind) : isSupervisorKind k = true ↔ k ∈ supervisorKinds := by
  cases k <;> decide

theorem attentionPending_eq_decide (s : State) (p : Port) :
    attentionPending s p = decide ((s.notices.get p).queue ≠ []) := by
  cases h : (s.notices.get p).queue <;> simp [attentionPending, h]

theorem fillReply_eq_replied (p : Port) (st : Status) (payload : List Byte) (s : State) :
    fillReply p st payload s = Replied s p st payload := by
  unfold fillReply Replied
  rw [attentionPending_eq_decide]
  rfl

/-- The owning block acts on a request that R154 admits, when its payload has a length the kind allows. -/
theorem takeRequest_of_admitted {s : State} {p : Port} {k : Kind} {pl : List Byte} (act : List Byte → State → State)
    (h : Admitted s p k pl) (hl : k.lengthOk pl.length = true) : takeRequest p k act s = act pl s := by
  obtain ⟨hwork, hopen, hsup⟩ := h
  exact takeRequest_acted (untaken_eq_some.2 ⟨hwork, rfl, rfl⟩)
    (sessionCheck_none hopen rfl (fun hk => hsup ((isSupervisorKind_iff k).1 hk)) hl)

/-! ### Handles on the link (R160) -/

@[simp] theorem handleAt_putHandle (h : Handle) : handleAt (putHandle h) 0 = some h := by
  have hindex : num8 (putHandle h) 0 = h.index.val := by
    simp only [num8, putHandle, List.getD_cons_zero, BitVec.toNat_ofNat]
    exact Nat.mod_eq_of_lt (by omega)
  simp only [handleAt, hindex, h.index.isLt, dif_pos]
  rfl

theorem handleAt_eq_none {pl : List Byte} {i : Nat} (h : 31 < num8 pl i) : handleAt pl i = none :=
  dif_neg (by omega)

/-! ### SURF_INFO (R63) -/

theorem exec_surfInfo (p : Port) (s : State) :
    exec (.surfInfo p) s = .next (takeRequest p .surfInfo (surfInfo p) s) := rfl

theorem ownNamedSurface_of_named {s : State} {p : Port} {h : Handle}
    (hfree : (s.alloc.table.get h.index).state ≠ .free) (hgen : (s.alloc.table.get h.index).gen = h.gen)
    (howner : (s.alloc.table.get h.index).owner = p) :
    ownNamedSurface s p (some h) = some (s.alloc.table.get h.index) := by
  simp [ownNamedSurface, namedSurface_eq_some.2 ⟨rfl, hfree, hgen⟩, howner]

theorem ownNamedSurface_eq_none {s : State} {p : Port} {h : Handle}
    (hn : ¬((s.alloc.table.get h.index).state ≠ .free ∧ (s.alloc.table.get h.index).gen = h.gen ∧
      (s.alloc.table.get h.index).owner = p)) : ownNamedSurface s p (some h) = none := by
  cases hs : namedSurface s.alloc.table h with
  | none => simp [ownNamedSurface, hs]
  | some e =>
    obtain ⟨rfl, hfree, hgen⟩ := namedSurface_eq_some.1 hs
    have howner : (s.alloc.table.get h.index).owner ≠ p := fun ho => hn ⟨hfree, hgen, ho⟩
    simp [ownNamedSurface, hs, howner]

theorem surfInfo_named {s : State} {p : Port} {pl : List Byte} {e : SurfEntry}
    (h : ownNamedSurface s p (handleAt pl 0) = some e) :
    surfInfo p pl s = Replied s p .ok (putEntry e ++ chargeAndQuota s p) := by
  simp only [surfInfo, h, fillReply_eq_replied]

theorem surfInfo_unnamed {s : State} {p : Port} {pl : List Byte}
    (h : ownNamedSurface s p (handleAt pl 0) = none) :
    surfInfo p pl s = Replied s p .noSurface (chargeAndQuota s p) := by
  simp only [surfInfo, h, fillReply_eq_replied]

/-- An admitted SURF_INFO with a payload of its two bytes is acted on by the allocator. -/
theorem exec_surfInfo_of_admitted {s : State} {p : Port} {pl : List Byte} (h : Admitted s p .surfInfo pl)
    (hl : Kind.surfInfo.lengthOk pl.length = true) : exec (.surfInfo p) s = .next (surfInfo p pl s) := by
  rw [exec_surfInfo, takeRequest_of_admitted _ h hl]

/-- Settles O23: an index above 31 names no surface, and one up to 31 names its entry or none. -/
theorem surfInfoReports : Obligations.SurfInfoReports := by
  unfold Obligations.SurfInfoReports
  refine ⟨fun s p pl hadm hmin hmax hindex => ?_, fun s p h hadm => ⟨fun hfree hgen howner => ?_, fun hn => ?_⟩⟩
  case refine_1 =>
    have hl : Kind.surfInfo.lengthOk pl.length = true := by simp [Kind.lengthOk, hmin, hmax]
    rw [exec_surfInfo_of_admitted hadm hl, surfInfo_unnamed (by rw [handleAt_eq_none hindex]; rfl)]
    rfl
  case refine_2 =>
    have hnamed := ownNamedSurface_of_named hfree hgen howner
    rw [exec_surfInfo_of_admitted hadm rfl, surfInfo_named (by rw [handleAt_putHandle, hnamed])]
    rfl
  case refine_3 =>
    have hnone := ownNamedSurface_eq_none hn
    rw [exec_surfInfo_of_admitted hadm rfl, surfInfo_unnamed (by rw [handleAt_putHandle, hnone])]
    rfl

end Sys2Proof.Machine
end

section
/-! PROOFS. Requests taken in every session state (R154), and IDENTIFY (R158). -/

namespace Sys2Proof.Machine

/-! ### Requests that need no session -/

/-- The supervisor kinds all need a session, so check 1 of R154 does not stop a kind that needs none. -/
theorem isSupervisorKind_of_not_needsSession {k : Kind} (h : needsSession k = false) : isSupervisorKind k = false := by
  cases k
  case identify | openSession => rfl
  all_goals cases h

/-- Of the checks of R154 only the payload's length meets a kind that needs no session. -/
theorem sessionCheck_none_of_not_needsSession {p : Port} {w : Work} {s : State} (hk : needsSession w.kind = false)
    (hl : w.kind.lengthOk w.payload.length = true) : sessionCheck p w s = none := by
  simp [sessionCheck, isSupervisorKind_of_not_needsSession hk, hk, hl]

/-- The owning block acts on a request that needs no session, whatever the session state and the epoch. -/
theorem takeRequest_of_not_needsSession {s : State} {p : Port} {k : Kind} {ep : Byte} {pl : List Byte}
    (act : List Byte → State → State) (hk : needsSession k = false) (h : InWork s p k ep pl)
    (hl : k.lengthOk pl.length = true) : takeRequest p k act s = act pl s :=
  takeRequest_acted (untaken_eq_some.2 ⟨h, rfl, rfl⟩) (sessionCheck_none_of_not_needsSession hk hl)

/-! ### IDENTIFY (R158) -/

theorem exec_identify (p : Port) (s : State) :
    exec (.identify p) s = .next (takeRequest p .identify (identify p) s) := rfl

theorem identify_eq_replied (p : Port) (pl : List Byte) (s : State) :
    identify p pl s =
      Replied s p .ok
        (put16 Config.partCode ++ put8 Config.revision ++
          [portByte p, portByte s.supv, (s.sessions.get p).state.code, (s.sessions.get p).epoch,
           BitVec.ofNat 8 s.preset.val]) :=
  fillReply_eq_replied p .ok _ s

/-- The part code 0x0A41, low byte first, and the revision 1. -/
theorem put_part_and_revision : put16 Config.partCode ++ put8 Config.revision = [0x41#8, 0x0A#8, 1#8] := by decide

/-- Settles O12: IDENTIFY needs no session, so only its length is checked, and its block does nothing but reply. -/
theorem identifyReports : Obligations.IdentifyReports := by
  unfold Obligations.IdentifyReports
  intro s p ep hwork
  have hacted : takeRequest p .identify (identify p) s = identify p [] s :=
    takeRequest_of_not_needsSession (identify p) rfl hwork rfl
  rw [exec_identify, hacted, identify_eq_replied, put_part_and_revision]
  rfl

end Sys2Proof.Machine
end

section
/-! PROOFS. A port whose session is IDLE holds nothing (R53, R175). -/

namespace Sys2Proof.Machine

/-! ### Whatever is held has an owner whose session is not IDLE -/

/-- Both marks are clear outside CLOSING (R174). -/
theorem SessionOk.not_withdrawing_of_idle {s : State} {p : Port} (h : SessionOk s p)
    (hidle : (s.sessions.get p).state = .idle) : (s.sessions.get p).withdrawalPending ≠ true := by
  intro hmark
  have hclosing : (s.sessions.get p).state = .closing := h.marks.2 (.inl hmark)
  simp [hidle] at hclosing

/-- A band outlives its owner's OPEN session only while the withdrawal is outstanding, which a CLOSING session marks. -/
theorem band_owner_not_idle {s : State} (hq : QueueLaw s) (hl : LayoutLaw s) {b : Band}
    (hb : b ∈ s.layout.active.bands) : (s.sessions.get b.key.owner).state ≠ .idle := by
  intro hidle
  obtain hopen | hmark := hl.owners b hb
  · simp [hidle] at hopen
  · exact (hq.session b.key.owner).not_withdrawing_of_idle hidle hmark

/-- A LIVE surface has an OPEN owner, a RETIRING one an OPEN or CLOSING owner (R62). -/
theorem EntryOwned.owner_not_idle {s : State} {i : Fin 32} {e : SurfEntry} (h : EntryOwned s i e)
    (hused : e.state ≠ .free) : (s.sessions.get e.owner).state ≠ .idle := by
  intro hidle
  cases hstate : e.state with
  | free => exact hused hstate
  | live =>
    have hopen := h.live hstate
    simp [hidle] at hopen
  | retiring =>
    obtain hopen | ⟨hclosing, -⟩ := h.owned hstate
    · simp [hidle] at hopen
    · simp [hidle] at hclosing

theorem surface_owner_not_idle {s : State} (h : SurfaceLaw s) {e : SurfEntry} (he : e ∈ s.alloc.table.toList)
    (hused : e.state ≠ .free) : (s.sessions.get e.owner).state ≠ .idle := by
  obtain ⟨i, hi, rfl⟩ := Vector.getElem_of_mem (Vector.mem_toList_iff.1 he)
  exact (h.entry ⟨i, hi⟩).owner_not_idle hused

/-- A held job's owner is OPEN, or CLOSING while its job is being aborted (R102). -/
theorem JobOk.owner_not_idle {s : State} {j : Job} (h : JobOk s j) : (s.sessions.get j.owner).state ≠ .idle := by
  intro hidle
  obtain ⟨hopen, -⟩ | ⟨hclosing, -⟩ := h.owner
  · simp [hidle] at hopen
  · simp [hidle] at hclosing

/-- A transaction belongs to an OPEN session, a withdrawal to a CLOSING one (R26). -/
theorem EntryOk.port_not_idle {s : State} {e : QueueEntry} (h : EntryOk s e) :
    (s.sessions.get e.port).state ≠ .idle := by
  intro hidle
  cases e with
  | transaction t =>
    obtain ⟨hopen, -⟩ := h
    exact absurd (hopen.symm.trans hidle) (by decide)
  | withdrawal q =>
    obtain ⟨hclosing, -⟩ := h
    exact absurd (hclosing.symm.trans hidle) (by decide)

/-! ### The one record each port has, for an IDLE port -/

theorem grantOf_eq_none_of_idle {s : State} {p : Port} (h : PalRecordOk s p)
    (hidle : (s.sessions.get p).state = .idle) : grantOf s p = none := by
  cases hg : grantOf s p with
  | none => rfl
  | some g =>
    obtain ⟨-, hnot⟩ := h.grant g hg
    exact absurd hidle hnot

theorem vote_eq_none_of_idle {s : State} {p : Port} (h : PowerLaw s) (hidle : (s.sessions.get p).state = .idle) :
    s.power.votes.get p = none := by
  have hnovote : ¬(s.power.votes.get p).isSome = true := by
    rw [← h.votes p, hidle]
    decide
  simpa using hnovote

theorem notices_eq_cleared_of_idle {s : State} {p : Port} (h : SessionOk s p)
    (hidle : (s.sessions.get p).state = .idle) : s.notices.get p = NoticeQueue.cleared := by
  apply h.quiet
  rw [hidle]
  decide

/-- The charge counts the blocks of the port's surfaces and nothing else (R53). -/
theorem AllocLaw.charge_eq_zero {a : Allocator} {p : Port} (h : AllocLaw a)
    (hnone : ∀ e ∈ a.table.toList, e.state ≠ .free → e.owner ≠ p) : a.charge.get p = 0 := by
  rw [h.charges p, List.sum_eq_zero_iff]
  intro n hn
  obtain ⟨e, he, rfl⟩ := List.mem_map.1 hn
  exact if_neg fun ⟨hused, howner⟩ => hnone e he hused howner

/-! ### The law of R175 -/

/-- Settles O16: the blocks' laws give whatever they hold an owner that is not IDLE, and a port without surfaces has no
charge. -/
theorem idlePortHoldsNothing : Obligations.IdlePortHoldsNothing := by
  unfold Obligations.IdlePortHoldsNothing
  intro s p hs hidle
  have hsession : SessionOk s p := hs.queue.session p
  have hsurfaces : ∀ e ∈ s.alloc.table.toList, e.state ≠ .free → e.owner ≠ p := by
    rintro e he hused rfl
    exact surface_owner_not_idle hs.surface he hused hidle
  refine ⟨?bands, hsurfaces, hs.alloc.charge_eq_zero hsurfaces, grantOf_eq_none_of_idle (hs.palette.record p) hidle,
    ?jobs, ?entries, vote_eq_none_of_idle hs.power hidle, ?notices⟩
  case bands =>
    rintro b hb rfl
    exact band_owner_not_idle hs.queue hs.layout hb hidle
  case jobs =>
    rintro j hj rfl
    exact (hs.engine.job j hj).owner_not_idle hidle
  case entries =>
    rintro e he rfl
    exact (hs.queue.entry e he).port_not_idle hidle
  case notices => rw [notices_eq_cleared_of_idle hsession hidle]; rfl

end Sys2Proof.Machine
end

section
/-! PROOFS. The cases of a request row, of a grant of the frame store and of a step (R68, R154; O1). -/

namespace Sys2Proof.Machine

/-! ### Request rows -/

/-- A property of the state after a request row: the row finds no request, or the session manager refuses it, or its block acts. -/
theorem takeRequest_ind {P : State → Prop} {p : Port} {k : Kind} {act : List Byte → State → State} {s : State} (hidle : P s)
    (hrefused : ∀ w st, untaken p k s = some w → P (fillReply p st [] s))
    (hacted : ∀ w, untaken p k s = some w → sessionCheck p w s = none → P (act w.payload s)) :
    P (takeRequest p k act s) := by
  obtain h | ⟨w, st, hw, -, h⟩ | ⟨w, hw, hc, h⟩ := takeRequest_cases p k act s
  · rw [h]; exact hidle
  · rw [h]; exact hrefused w st hw
  · rw [h]; exact hacted w hw hc

/-- An EDIT row, in the same three cases. -/
theorem takeEdit_ind {P : State → Prop} {p : Port} {code : Nat} {s : State} (hidle : P s)
    (hrefused : ∀ w st, untaken p .edit s = some w → P (fillReply p st [] s))
    (hacted : ∀ w, untaken p .edit s = some w → sessionCheck p w s = none → P (stageEdit p w.payload s)) :
    P (takeEdit p code s) := by
  unfold takeEdit
  split
  · rename_i w hw
    split
    · unfold takeWork
      split
      · exact hrefused w _ hw
      · rename_i hc
        exact hacted w hw hc
    · exact hidle
  · exact hidle

/-! ### FRAME_STORE_GRANT -/

/-- What FRAME_STORE_GRANT does: nothing, or it grants the line fetch, the engine's row or the oldest port access (R68). -/
inductive Granted (s : State) : State → Prop
  | nothing : Granted s s
  | lineFetch (f : LineFetch) : s.arb.busy = none → s.arb.lineFetch = some f → f.addr + f.len ≤ Config.storeBytes →
    Granted s { s with arb := { s.arb with lineFetch := none, busy := some (.lineFetch f (s.bytesAt f.addr f.len)) } }
  | row (j : Job) : s.arb.busy = none → s.arb.lineFetch = none → waitingRow s = some j →
    (rowWrite s j).1 + (rowWrite s j).2.length ≤ Config.storeBytes →
    Granted s
      { s with
        store := Memory.storeRun s.store (rowWrite s j).1 (rowWrite s j).2
        arb := { s.arb with turn := .ports, engineRow := false, busy := some (.engineRow false) } }
  | port (a : PortAccess) (rest : List PortAccess) : s.arb.busy = none → s.arb.lineFetch = none → s.arb.ports = a :: rest →
    a.addr + a.span ≤ Config.storeBytes →
    Granted s
      { s with
        store := accessStore s a
        arb :=
          { s.arb with
            turn := .engine, ports := rest, busy := some (.portAccess a.port a.status (accessPayload s a) true) } }

theorem grantRow_granted {s t : State} {j : Job} (hbusy : s.arb.busy = none) (hline : s.arb.lineFetch = none)
    (hrow : waitingRow s = some j) (h : grantRow j s = .next t) : Granted s t := by
  unfold grantRow at h
  dsimp only at h
  split at h
  · rename_i hin
    cases h; exact .row j hbusy hline hrow (runInStore_iff.1 hin.1)
  · cases h

theorem grantPort_granted {s t : State} {a : PortAccess} {rest : List PortAccess} (hbusy : s.arb.busy = none)
    (hline : s.arb.lineFetch = none) (hports : s.arb.ports = a :: rest) (h : grantPort a rest s = .next t) : Granted s t := by
  unfold grantPort at h
  split at h
  · rename_i hin
    cases h; exact .port a rest hbusy hline hports (runInStore_iff.1 hin)
  · cases h

theorem execFrameStoreGrant_granted {s t : State} (h : execFrameStoreGrant s = .next t) : Granted s t := by
  unfold execFrameStoreGrant at h
  split at h
  · cases h; exact .nothing
  · rename_i hbusy
    split at h
    · rename_i f hf
      unfold grantLineFetch at h
      split at h
      · rename_i hin
        cases h; exact .lineFetch f hbusy hf (runInStore_iff.1 hin)
      · cases h
    · rename_i hline
      split at h
      · rename_i hrow _; exact grantRow_granted hbusy hline hrow h
      · rename_i hrow hports
        split at h
        · exact grantRow_granted hbusy hline hrow h
        · exact grantPort_granted hbusy hline hports h
      · rename_i hports; exact grantPort_granted hbusy hline hports h
      · cases h; exact .nothing

/-- A grant stores only what lies in the frame store. -/
theorem Granted.store_wf {s t : State} (h : Granted s t) (hwf : Memory.wf s.store = true) : Memory.wf t.store = true := by
  cases h with
  | nothing => exact hwf
  | lineFetch f => exact hwf
  | row j _ _ _ hin => exact Memory.wf_storeRun _ _ _ hwf hin
  | port a rest _ _ _ hin =>
    cases hop : a.op with
    | write data =>
      simp only [PortAccess.span, hop] at hin
      simp only [accessStore, hop]
      exact Memory.wf_storeRun _ _ _ hwf hin
    | read n =>
      simp only [accessStore, hop]
      exact hwf

theorem Granted.pending {s t : State} (h : Granted s t) : t.pending = s.pending := by cases h <;> rfl

/-! ### Steps -/

/-- A step idles, or runs the front command on the state with the queue's rest. -/
theorem step_cases {s t : State} (h : step s = .next t) :
    (s.pending = [] ∧ t = s) ∨ ∃ c rest, s.pending = c :: rest ∧ exec c { s with pending := rest } = .next t := by
  unfold step at h
  split at h
  · rename_i hp
    cases h; exact .inl ⟨hp, rfl⟩
  · rename_i c rest hp
    exact .inr ⟨c, rest, hp, h⟩

/-- An invariant that ignores the queue of commands holds of the next state when every command keeps it. -/
theorem step_invariant {P : State → Prop} (hq : ∀ s rest, P s → P { s with pending := rest })
    (hexec : ∀ c s t, P s → exec c s = .next t → P t) {s t : State} (hs : P s) (h : step s = .next t) : P t := by
  obtain ⟨-, rfl⟩ | ⟨c, rest, -, h⟩ := step_cases h
  · exact hs
  · exact hexec c _ t (hq s rest hs) h

/-- Settles O1: it is the second case of the step. -/
theorem stepTakesFrontCommand : Obligations.StepTakesFrontCommand := by
  unfold Obligations.StepTakesFrontCommand
  intro c rest s h
  simp only [step, h]

end Sys2Proof.Machine
end

section
/-! PROOFS. Requests that change one block's settings or queues: notices (R179 to R182), quotas (R66), OPEN (R168, R169), the staging
area (R22, R25) and TOUCH (R128). -/

namespace Sys2Proof.Machine

/-! ### A request of one row -/

/-- The block of a request row acts on a request that R154 admits, when its payload has a length the kind allows. -/
theorem exec_of_admitted {c : Instr} {s : State} {p : Port} {k : Kind} {pl : List Byte} (act : List Byte → State → State)
    (hrow : exec c s = .next (takeRequest p k act s)) (h : Admitted s p k pl) (hl : k.lengthOk pl.length = true) :
    exec c s = .next (act pl s) := by
  rw [hrow, takeRequest_of_admitted act h hl]

@[simp] theorem num8_cons_zero (b : Byte) (pl : List Byte) : num8 (b :: pl) 0 = b.toNat := rfl

@[simp] theorem num8_cons_succ (b : Byte) (pl : List Byte) (i : Nat) : num8 (b :: pl) (i + 1) = num8 pl i := rfl

@[simp] theorem num16_cons_succ (b : Byte) (pl : List Byte) (i : Nat) : num16 (b :: pl) (i + 1) = num16 pl i := rfl

@[simp] theorem num24_cons_succ (b : Byte) (pl : List Byte) (i : Nat) : num24 (b :: pl) (i + 1) = num24 pl i := rfl

/-- A number of two bytes is read back (R159). -/
theorem num16_put16 {n : Nat} (h : n < 65536) (rest : List Byte) : num16 (put16 n ++ rest) 0 = n := by
  simp only [num16, num8, put16, List.cons_append, List.nil_append, List.getD_cons_zero, List.getD_cons_succ,
    BitVec.toNat_ofNat]
  omega

/-- A number of three bytes is read back (R160). -/
theorem num24_put24 {n : Nat} (h : n < 16777216) (rest : List Byte) : num24 (put24 n ++ rest) 0 = n := by
  simp only [num24, num16, num8, put24, List.cons_append, List.nil_append, List.getD_cons_zero, List.getD_cons_succ,
    BitVec.toNat_ofNat]
  omega

@[simp] theorem length_put16 (n : Nat) : (put16 n).length = 2 := rfl

@[simp] theorem length_put24 (n : Nat) : (put24 n).length = 3 := rfl

@[simp] theorem length_putHandle (h : Handle) : (putHandle h).length = 2 := rfl

/-- What is read behind two bytes is read from the rest. -/
theorem num8_append_two {a : List Byte} (h : a.length = 2) (rest : List Byte) (i : Nat) :
    num8 (a ++ rest) (i + 2) = num8 rest i := by
  match a, h with
  | [x, y], _ => rfl

theorem num16_append_two {a : List Byte} (h : a.length = 2) (rest : List Byte) (i : Nat) :
    num16 (a ++ rest) (i + 2) = num16 rest i := by
  match a, h with
  | [x, y], _ => rfl

theorem num24_append_two {a : List Byte} (h : a.length = 2) (rest : List Byte) (i : Nat) :
    num24 (a ++ rest) (i + 2) = num24 rest i := by
  match a, h with
  | [x, y], _ => rfl

/-- A byte at most 1 is the code of whether it is 1 (R160). -/
theorem flagCode_of_le_one {n : Nat} {v : Byte} (hv : v.toNat = n) (h : n ≤ 1) : flagCode (decide (n = 1)) = v := by
  apply BitVec.eq_of_toNat_eq
  obtain rfl | rfl : n = 0 ∨ n = 1 := by omega
  · simp [hv, flagCode]
  · simp [hv, flagCode]

theorem byte_eq_one_iff (v : Byte) : v = 1#8 ↔ v.toNat = 1 :=
  ⟨fun h => by rw [h]; rfl, fun h => BitVec.eq_of_toNat_eq h⟩

theorem byte_eq_zero_iff (v : Byte) : v = 0#8 ↔ v.toNat = 0 :=
  ⟨fun h => by rw [h]; rfl, fun h => BitVec.eq_of_toNat_eq h⟩

/-! ### Notices (R179 to R182) -/

/-- Settles O19: the two requests act on the port's own queue. -/
theorem noticeRequestsAct : Obligations.NoticeRequestsAct := by
  unfold Obligations.NoticeRequestsAct
  intro s p v
  refine ⟨fun hadm => ?read, fun hadm => ?subscribe⟩
  case read =>
    rw [exec_of_admitted (noticeRead p) rfl hadm rfl]
    simp only [noticeRead, num8_cons_zero, fillReply_eq_replied, List.length_take]
    rfl
  case subscribe =>
    rw [exec_of_admitted (noticeSubscribe p) rfl hadm rfl]
    have hv : v.toNat = num8 [v] 0 := rfl
    simp only [noticeSubscribe, fillReply_eq_replied, byte_eq_one_iff, hv]
    split
    · rfl
    · rename_i hle
      rw [flagCode_of_le_one hv (by omega)]
      rfl

/-- A list in which one element alone meets a condition: the replacement of what meets it. -/
theorem map_replace_single {α : Type} {f : α → Bool} {x n : α} {ahead behind : List α} (hx : f x = true)
    (hrest : ∀ m ∈ ahead ++ behind, f m = false) :
    (ahead ++ x :: behind).map (fun m => if f m then n else m) = ahead ++ n :: behind := by
  have hsame : ∀ l : List α, (∀ m ∈ l, f m = false) → l.map (fun m => if f m then n else m) = l := fun l hl => by
    conv_rhs => rw [← List.map_id l]
    exact List.map_congr_left fun m hm => by simp [hl m hm]
  rw [List.map_append, List.map_cons, if_pos hx, hsame ahead fun m hm => hrest m (List.mem_append_left _ hm),
    hsame behind fun m hm => hrest m (List.mem_append_right _ hm)]

/-- A FRAME notice takes its partner's place (R180). -/
theorem coalesce_frame {f g : BitVec 16} {ahead behind : List Notice} (h : ∀ m ∈ ahead ++ behind, m.isFrame = false) :
    coalesce (.frame f) (ahead ++ .frame g :: behind) = some (ahead ++ .frame f :: behind) := by
  have hany : (ahead ++ .frame g :: behind).any Notice.isFrame = true := by simp [Notice.isFrame]
  simp only [coalesce, hany, if_true]
  rw [map_replace_single rfl h]

/-- A POWER notice takes its partner's place (R180). -/
theorem coalesce_power {f g : PowerState} {ahead behind : List Notice} (h : ∀ m ∈ ahead ++ behind, m.isPower = false) :
    coalesce (.power f) (ahead ++ .power g :: behind) = some (ahead ++ .power f :: behind) := by
  have hany : (ahead ++ .power g :: behind).any Notice.isPower = true := by simp [Notice.isPower]
  simp only [coalesce, hany, if_true]
  rw [map_replace_single rfl h]

/-- A notice without a partner in the queue is not folded (R180). -/
theorem coalesce_eq_none {n : Notice} {q : List Notice} (hframe : n.isFrame = true → ∀ m ∈ q, m.isFrame = false)
    (hpower : n.isPower = true → ∀ m ∈ q, m.isPower = false) (hstale : ∀ k, n = .stale k → n ∉ q) :
    coalesce n q = none := by
  cases n with
  | frame f =>
    have hany : q.any Notice.isFrame = false := by simpa using hframe rfl
    simp [coalesce, hany]
  | power f =>
    have hany : q.any Notice.isPower = false := by simpa using hpower rfl
    simp [coalesce, hany]
  | stale k => simp [coalesce, hstale k rfl]
  | committed | rejected | evicted | jobDone | jobCancelled | jobAborted => rfl

theorem coalesce_outcome {n : Notice} {q : List Notice} (h : n.isOutcome = true) : coalesce n q = none := by
  cases n <;> first | rfl | cases h

/-- A notice folded into its partner changes the queue and not the lost flag. -/
theorem take_of_coalesce {nq : NoticeQueue} {n : Notice} {q : List Notice} (h : coalesce n nq.queue = some q) :
    nq.take n = { nq with queue := q } := by simp [NoticeQueue.take, h]

/-- A notice that is not folded is appended when it is an outcome or there is room (R179). -/
theorem take_of_room {nq : NoticeQueue} {n : Notice} (h : coalesce n nq.queue = none)
    (hroom : n.isOutcome = true ∨ otherCount nq.queue < Config.maxOtherNotices) :
    nq.take n = { nq with queue := nq.queue ++ [n] } := by simp [NoticeQueue.take, h, hroom]

/-- A notice that is not folded and finds no room is dropped (R179). -/
theorem take_of_full {nq : NoticeQueue} {n : Notice} (h : coalesce n nq.queue = none)
    (hroom : ¬(n.isOutcome = true ∨ otherCount nq.queue < Config.maxOtherNotices)) :
    nq.take n = { nq with lost := true } := by simp only [NoticeQueue.take, h, if_neg hroom]

/-- Settles O20: the cases of the fold, then the room for what is not folded. -/
theorem postingFollowsTheQueueRules : Obligations.PostingFollowsTheQueueRules := by
  unfold Obligations.PostingFollowsTheQueueRules
  intro s p n q others kept
  refine ⟨fun hclosed => post_of_not_open hclosed, fun hopen => ⟨?frame, ?power, ?stale, ?outcome, ?other⟩⟩
  all_goals
    have hpost : post (p, n) s = { s with notices := s.notices.set p (q.take n) } := post_of_open (x := (p, n)) hopen
  case frame =>
    rintro f ahead g behind rfl hq hrest
    rw [hpost, take_of_coalesce (q := ahead ++ .frame f :: behind) (by rw [hq, coalesce_frame hrest])]
  case power =>
    rintro f ahead g behind rfl hq hrest
    rw [hpost, take_of_coalesce (q := ahead ++ .power f :: behind) (by rw [hq, coalesce_power hrest])]
  case stale =>
    rintro k rfl hmem
    have hfold : coalesce (.stale k) q.queue = some q.queue := by simp [coalesce, hmem]
    have hsame : q.take (.stale k) = q := take_of_coalesce hfold
    rw [hpost, hsame, PerPort.set_get]
  case outcome =>
    intro hout
    rw [hpost, take_of_room (coalesce_outcome hout) (.inl hout)]
  case other =>
    intro hout hframe hpower hstale
    have hfold : coalesce n q.queue = none := coalesce_eq_none hframe hpower hstale
    refine ⟨fun hroom => ?_, fun hfull => ?_⟩
    · rw [hpost, take_of_room hfold (.inr hroom)]
    · have hnone : ¬(n.isOutcome = true ∨ otherCount q.queue < Config.maxOtherNotices) := by
        rintro (h | h)
        · simp [hout] at h
        · exact absurd hfull (Nat.not_le.2 h)
      rw [hpost, take_of_full hfold hnone]

/-! ### Quotas (R66) -/

/-- Settles O25: the port and the count are read back from the payload. -/
theorem quotaIsReplaced : Obligations.QuotaIsReplaced := by
  unfold Obligations.QuotaIsReplaced
  intro s p b n hn hadm
  have hcount : num16 (b :: put16 n) 1 = n := by
    simpa using num16_put16 hn []
  rw [exec_of_admitted (supQuota p) rfl hadm rfl, List.singleton_append]
  simp only [supQuota, hcount, num8_cons_zero, fillReply_eq_replied]
  refine ⟨fun hbad => ?_, fun q hq hle => ?_⟩
  · cases hport : Port.ofNat? b.toNat with
    | none => rfl
    | some q =>
      have hsmall : ¬3 < b.toNat := by
        rw [← Port.ofNat?_eq_none, hport]
        simp
      simp only [if_pos (hbad.resolve_left hsmall)]
  · have hsmall : ¬256 < n := by omega
    simp only [hq, Port.ofNat?_toNat, if_neg hsmall]

/-! ### OPEN (R168, R169) -/

/-- Settles O13: OPEN needs no session, and answers by the session's state. -/
theorem openActsBySessionState : Obligations.OpenActsBySessionState := by
  unfold Obligations.OpenActsBySessionState
  intro s p ep a b c d hwork
  have hacted : exec (.openSession p) s = .next (openSession p [a, b, c, d] s) :=
    congrArg _ (takeRequest_of_not_needsSession (openSession p) rfl hwork rfl)
  rw [hacted]
  refine ⟨fun hidle => ?_, fun w hopen hlabel => ?_, fun hclosing => ?_⟩
  · simp only [openSession, hidle, fillReply_eq_replied, flagCode, decide_eq_true_eq]
    rfl
  · simp only [openSession, hopen, hlabel, fillReply_eq_replied, putLabel]
  · simp only [openSession, hclosing, fillReply_eq_replied]

/-! ### RECALL and ABANDON (R22, R25) -/

theorem hasTransaction_iff_submitted {s : State} {p : Port} : hasTransaction s p = true ↔ Submitted s p :=
  hasTransaction_iff

/-- The port's entry is found where it is the port's only one. -/
theorem findTransaction_of_split {x : Transaction} {ahead behind : List QueueEntry}
    (h : ∀ e ∈ ahead, e.port ≠ x.port) :
    findTransaction x.port (ahead ++ .transaction x :: behind) = some x := by
  induction ahead with
  | nil => simp [findTransaction]
  | cons e ahead ih =>
    have hrest := ih fun e' he' => h e' (List.mem_cons_of_mem _ he')
    have he : e.port ≠ x.port := h e List.mem_cons_self
    cases e with
    | withdrawal q => exact hrest
    | transaction t =>
      have ht : t.port ≠ x.port := he
      simpa [findTransaction, ht] using hrest

theorem isTransactionOf_of_ne {p : Port} {e : QueueEntry} (h : e.port ≠ p) : e.isTransactionOf p = false := by
  cases e with
  | withdrawal q => rfl
  | transaction t =>
    have h : t.port ≠ p := h
    simp [QueueEntry.isTransactionOf, h]

/-- Without the port's entry the queue is what stands ahead of it and behind it. -/
theorem filter_isTransactionOf_split {x : Transaction} {ahead behind : List QueueEntry}
    (h : ∀ e ∈ ahead ++ behind, e.port ≠ x.port) :
    (ahead ++ .transaction x :: behind).filter (fun e => !e.isTransactionOf x.port) = ahead ++ behind := by
  have hkeep : ∀ e ∈ ahead ++ behind, (!e.isTransactionOf x.port) = true := fun e he => by
    simp [isTransactionOf_of_ne (h e he)]
  rw [List.filter_append, List.filter_cons_of_neg (by simp [QueueEntry.isTransactionOf]), ← List.filter_append,
    List.filter_eq_self.2 hkeep]

/-- Settles O36: the two requests answer by the submission record and by the submit queue. -/
theorem recallAndAbandon : Obligations.RecallAndAbandon := by
  unfold Obligations.RecallAndAbandon
  intro s p
  refine ⟨fun hadm => ?recalled, fun hadm => ?abandoned⟩
  case recalled =>
    rw [exec_of_admitted (recallTransaction p) rfl hadm rfl]
    refine ⟨?_, fun hrec => ?_, fun hrec => ?_⟩
    · rintro x ahead behind hrec hqueue rfl hothers
      have hfound : findTransaction x.port (ahead ++ .transaction x :: behind) = some x :=
        findTransaction_of_split fun e he => hothers e (List.mem_append_left _ he)
      simp only [recallTransaction, hrec, hfound, fillReply_eq_replied, recallEntry, hqueue,
        filter_isTransactionOf_split hothers]
      rfl
    · simp only [recallTransaction, hrec, fillReply_eq_replied]
    · obtain hrec | hrec := hrec <;> simp only [recallTransaction, hrec, fillReply_eq_replied]
  case abandoned =>
    rw [exec_of_admitted (abandon p) rfl hadm rfl]
    simp only [abandon, fillReply_eq_replied]
    refine ⟨fun hsub => ?_, fun hsub => ?_⟩
    · rw [if_pos (hasTransaction_iff_submitted.2 hsub)]
    · rw [if_neg (mt hasTransaction_iff_submitted.1 hsub)]
      rfl

/-! ### TOUCH (R128) -/

theorem mem_namedNumbers {set : Byte} {n : Fin 8} : n ∈ namedNumbers set ↔ set.getLsbD n.val = true := by
  simp [namedNumbers]

theorem namedNumbers_eq_nil {set : Byte} : namedNumbers set = [] ↔ set = 0#8 := by
  simp only [List.eq_nil_iff_forall_not_mem, mem_namedNumbers]
  constructor
  · intro h
    apply BitVec.eq_of_getLsbD_eq
    intro i hi
    simpa using h ⟨i, hi⟩
  · rintro rfl n
    simp

theorem namesBand_eq_any (s : State) (p : Port) (n : Fin 8) :
    namesBand s p n = s.layout.active.bands.any fun b => decide (b.key = ⟨p, n⟩) := by
  rw [Bool.eq_iff_iff]
  simp [namesBand, findBand]

/-- Settles O37: the numbers named that name a band are those whose records are refreshed. -/
theorem touchRefreshes : Obligations.TouchRefreshes := by
  unfold Obligations.TouchRefreshes
  intro s p set hadm bands named known touched
  rw [exec_of_admitted (touch p) rfl hadm rfl]
  have hknown : ∀ n, namesBand s p n = known n := namesBand_eq_any s p
  have hmem : ∀ r : FreshRecord, (r.key.owner = p ∧ r.key.number ∈ (namedNumbers set).filter (namesBand s p)) ↔
      touched r = true := fun r => by
    simp [List.mem_filter, mem_namedNumbers, hknown, touched, named, and_assoc]
  have hcount : (namedNumbers set).filter (namesBand s p) = (List.finRange 8).filter fun n => named n && known n := by
    rw [namedNumbers, List.filter_filter]
    exact List.filter_congr fun n _ => by rw [hknown, Bool.and_comm]
  have hrest : (namedNumbers set).length - ((namedNumbers set).filter (namesBand s p)).length =
      ((List.finRange 8).filter fun n => named n && !known n).length := by
    have hsplit := List.length_eq_length_filter_add (l := namedNumbers set) (namesBand s p)
    have hnot : (namedNumbers set).filter (fun n => !namesBand s p n) =
        (List.finRange 8).filter fun n => named n && !known n := by
      rw [namedNumbers, List.filter_filter]
      exact List.filter_congr fun n _ => by rw [hknown, Bool.and_comm]
    rw [← hnot]
    omega
  refine ⟨fun hzero => ?_, fun hset => ?_⟩
  · simp only [touch, List.getD_cons_zero, namedNumbers_eq_nil, if_pos hzero, fillReply_eq_replied]
  · have hrecord : touchRecord p ((namedNumbers set).filter (namesBand s p)) =
        fun r => if touched r then { r with age := 0, mark := false } else r := by
      funext r
      simp only [touchRecord, hmem]
    have hmarks : clearedMarks p ((namedNumbers set).filter (namesBand s p)) s.fresh.records =
        (s.fresh.records.filter fun r => touched r && r.mark).length := by
      unfold clearedMarks
      congr 1
      refine List.filter_congr fun r _ => ?_
      congr 1
      rw [Bool.eq_iff_iff, ← hmem]
      simp
    simp only [touch, List.getD_cons_zero, namedNumbers_eq_nil, if_neg hset, fillReply_eq_replied, hrecord, hmarks, hrest]
    rw [hcount]
    rfl

end Sys2Proof.Machine
end

section
/-! PROOFS. The port links: the coding of request frames (R147, R148, R150, R159), request and fetch windows (R147 to R153), and port
resets (R156). -/

namespace Sys2Proof.Machine

/-! ### Bits and bytes (R147) -/

theorem byteOfBits_bitsOfByte (b : Byte) : byteOfBits (bitsOfByte b) = b := by
  revert b
  decide

theorem bytesOfBits_bitsOfByte_append (b : Byte) (bits : List Bool) :
    bytesOfBits (bitsOfByte b ++ bits) = b :: bytesOfBits bits :=
  congrArg (· :: bytesOfBits bits) (byteOfBits_bitsOfByte b)

theorem bytesOfBits_eq_nil : ∀ {bits : List Bool}, bits.length < 8 → bytesOfBits bits = []
  | [], _ | [_], _ | [_, _], _ | [_, _, _], _ | [_, _, _, _], _ | [_, _, _, _, _], _ | [_, _, _, _, _, _], _
  | [_, _, _, _, _, _, _], _ => rfl
  | _ :: _ :: _ :: _ :: _ :: _ :: _ :: _ :: _, h => by simp only [List.length_cons] at h; omega

/-- The bytes of a window are those that were sent; up to seven bits behind them do not count. -/
theorem bytesOfBits_bitsOfBytes {extra : List Bool} (h : extra.length < 8) (bs : List Byte) :
    bytesOfBits (bitsOfBytes bs ++ extra) = bs := by
  induction bs with
  | nil => exact bytesOfBits_eq_nil h
  | cons b bs ih =>
    have hcons : bitsOfBytes (b :: bs) = bitsOfByte b ++ bitsOfBytes bs := rfl
    rw [hcons, List.append_assoc, bytesOfBits_bitsOfByte_append, ih]

theorem bytesOfBits_bitsOfBytes_self (bs : List Byte) : bytesOfBits (bitsOfBytes bs) = bs := by
  simpa using bytesOfBits_bitsOfBytes (extra := []) (by decide) bs

/-! ### The CRC (R148) -/

theorem crcByte_self (r : Byte) : crcByte r r = 0#8 := by
  unfold crcByte
  rw [BitVec.xor_self]
  decide

/-- A run of bytes with its CRC behind it checks to 0. -/
theorem crc8_append_crc8 (bs : List Byte) : crc8 (bs ++ [crc8 bs]) = 0#8 := by
  have h : crc8 (bs ++ [crc8 bs]) = crcByte (crc8 bs) (crc8 bs) := by simp [crc8]
  rw [h, crcByte_self]

theorem eq_zero_of_crcShift {r : Byte} (h : crcShift r = 0#8) : r = 0#8 := by
  revert r
  decide

/-- The last byte of a run that checks to 0 is the CRC of the bytes ahead of it. -/
theorem eq_crc8_of_crc8_append {bs : List Byte} {c : Byte} (h : crc8 (bs ++ [c]) = 0#8) : c = crc8 bs := by
  have hlast : crcByte (crc8 bs) c = 0#8 := by simpa [crc8] using h
  have hzero : crc8 bs ^^^ c = 0#8 := by
    iterate 8 replace hlast := eq_zero_of_crcShift hlast
    exact hlast
  exact (BitVec.xor_eq_zero_iff.1 hzero).symm

/-! ### Request frames (R150, R159, R163) -/

theorem ofCode?_code (k : Kind) : Kind.ofCode? k.code = some k := by
  cases k <;> rfl

theorem mem_kind_all (k : Kind) : k ∈ Kind.all := by
  cases k <;> decide

theorem ofCode?_eq_some {c : Byte} {k : Kind} (h : Kind.ofCode? c = some k) : c = k.code := by
  have hcode := List.find?_some h
  exact (beq_iff_eq.1 hcode).symm

theorem ofCode?_eq_none {c : Byte} (h : ∀ k : Kind, k.code ≠ c) : Kind.ofCode? c = none := by
  rw [Kind.ofCode?, List.find?_eq_none]
  intro k _
  simpa using h k

theorem code_ne_fetchLead (k : Kind) : k.code ≠ Config.fetchLead := by
  cases k <;> decide

theorem requestFrame_eq (k : Kind) (ep seq : Byte) (pl : List Byte) :
    requestFrame k ep seq pl =
      k.code :: ep :: seq :: BitVec.ofNat 8 pl.length :: BitVec.ofNat 8 (pl.length / 256) ::
        (pl ++ [crc8 (requestHead k ep seq pl)]) := by
  simp [requestFrame, requestHead, put16]

@[simp] theorem length_requestFrame (k : Kind) (ep seq : Byte) (pl : List Byte) :
    (requestFrame k ep seq pl).length = 6 + pl.length := by
  rw [requestFrame_eq]
  simp
  omega

theorem num16_requestFrame (k : Kind) (ep seq : Byte) {pl : List Byte} (h : pl.length ≤ 261) :
    num16 (requestFrame k ep seq pl) 3 = pl.length := by
  rw [requestFrame_eq]
  exact num16_put16 (by omega) (pl ++ [crc8 (requestHead k ep seq pl)])

theorem crc8_requestFrame (k : Kind) (ep seq : Byte) (pl : List Byte) : crc8 (requestFrame k ep seq pl) = 0#8 :=
  crc8_append_crc8 _

/-- A frame that passes the checks of R150 is examined by its kind. -/
theorem examineFrame_of_checks {bs : List Byte} (hlong : 6 ≤ bs.length) (hmax : num16 bs 3 ≤ 261)
    (hlen : bs.length = 6 + num16 bs 3) (hcrc : crc8 bs = 0#8) :
    examineFrame bs =
      match Kind.ofCode? (bs.getD 0 0#8) with
      | none => .badKind (bs.getD 0 0#8) (bs.getD 2 0#8)
      | some .portReset => .portReset ((bs.drop 5).take (num16 bs 3))
      | some k => .request k (bs.getD 1 0#8) (bs.getD 2 0#8) ((bs.drop 5).take (num16 bs 3)) := by
  have h1 : ¬bs.length < 6 := Nat.not_lt.2 hlong
  have h2 : ¬(Config.maxRequestPayload < num16 bs 3 ∨ bs.length ≠ 6 + num16 bs 3) := by
    simp only [Config.maxRequestPayload]
    omega
  have h3 : ¬crc8 bs ≠ 0#8 := by simpa using hcrc
  exact (if_neg h1).trans ((if_neg h2).trans (if_neg h3))

/-- A frame as a master sends it is examined as the request it carries. -/
theorem examineFrame_requestFrame (k : Kind) (ep seq : Byte) {pl : List Byte} (h : pl.length ≤ 261) :
    examineFrame (requestFrame k ep seq pl) = if k = .portReset then .portReset pl else .request k ep seq pl := by
  have hnum := num16_requestFrame k ep seq h
  have hpayload : ((requestFrame k ep seq pl).drop 5).take pl.length = pl := by
    rw [requestFrame_eq]
    exact List.take_left
  have hkind : (requestFrame k ep seq pl).getD 0 0#8 = k.code := rfl
  rw [examineFrame_of_checks (by simp) (by omega) (by simp [hnum]) (crc8_requestFrame k ep seq pl), hnum, hpayload, hkind,
    ofCode?_code]
  cases k <;> rfl

/-- Settles O9: the bits, the CRC, and the examination of the frame. -/
theorem requestFrameRoundTrip : Obligations.RequestFrameRoundTrip := by
  unfold Obligations.RequestFrameRoundTrip
  intro k ep seq pl h
  exact ⟨bytesOfBits_bitsOfBytes_self _, crc8_requestFrame k ep seq pl, examineFrame_requestFrame k ep seq h⟩

/-- The only frames that are examined as a port reset are those a master sends for one. -/
theorem eq_requestFrame_of_portReset {bs pl : List Byte} (h : examineFrame bs = .portReset pl) :
    ∃ ep seq, pl.length ≤ 261 ∧ bs = requestFrame .portReset ep seq pl := by
  by_cases hshort : bs.length < 6
  · simp [examineFrame, hshort] at h
  by_cases hlen : Config.maxRequestPayload < num16 bs 3 ∨ bs.length ≠ 6 + num16 bs 3
  · simp only [examineFrame, if_neg hshort, if_pos hlen] at h
    cases h
  by_cases hcrc : crc8 bs = 0#8
  swap
  · simp only [examineFrame, if_neg hshort, if_neg hlen, if_pos hcrc] at h
    cases h
  simp only [Config.maxRequestPayload, not_or, not_lt, not_not] at hlen
  obtain ⟨hmax, hlen⟩ := hlen
  rw [examineFrame_of_checks (by omega) hmax hlen hcrc] at h
  match bs, hshort with
  | c :: ep :: seq :: l0 :: l1 :: rest, _ =>
    have hnum : num16 (c :: ep :: seq :: l0 :: l1 :: rest) 3 = l0.toNat + 256 * l1.toNat := rfl
    have hkind : c = Kind.portReset.code := by
      split at h
      · cases h
      · rename_i hk; exact ofCode?_eq_some hk
      · cases h
    subst hkind
    have hpl : pl = rest.take (l0.toNat + 256 * l1.toNat) := by
      have hcode : Kind.ofCode? ((Kind.portReset.code :: ep :: seq :: l0 :: l1 :: rest).getD 0 0#8) = some .portReset :=
        ofCode?_code .portReset
      rw [hcode] at h
      exact (FrameVerdict.portReset.inj h).symm
    rw [hnum] at hmax hlen
    simp only [List.length_cons] at hlen
    have hcount : pl.length = l0.toNat + 256 * l1.toNat := by
      rw [hpl, List.length_take]
      omega
    have hput : put16 pl.length = [l0, l1] := by
      have h0 := l0.isLt
      have h1 : (l0.toNat + 256 * l1.toNat) / 256 = l1.toNat := by omega
      simp only [put16, hcount, h1, List.cons.injEq, and_true]
      constructor
      all_goals
        apply BitVec.eq_of_toNat_eq
        rw [BitVec.toNat_ofNat]
        omega
    have hdrop : (rest.drop (l0.toNat + 256 * l1.toNat)).length = 1 := by
      rw [List.length_drop]
      omega
    obtain ⟨d, hd⟩ := List.length_eq_one_iff.1 hdrop
    have hrest : rest = pl ++ [d] := by
      rw [hpl, ← hd, List.take_append_drop]
    refine ⟨ep, seq, by omega, ?_⟩
    have hframe : Kind.portReset.code :: ep :: seq :: l0 :: l1 :: rest = requestHead .portReset ep seq pl ++ [d] := by
      simp [requestHead, hput, hrest]
    rw [hframe] at hcrc ⊢
    rw [eq_crc8_of_crc8_append hcrc]
    rfl
  | [], h | [_], h | [_, _], h | [_, _, _], h | [_, _, _, _], h => exact absurd (by simp) h

/-! ### Request windows (R147, R150, R151) -/

theorem exec_requestWindowClose (p : Port) (held : Bool) (bits : List Bool) (s : State) :
    exec (.requestWindowClose p held bits) s = execRequestWindowClose p held bits s := rfl

theorem windowTaken_of_open {l : Link} {bs : List Byte} (hrst : l.rstLow = false) (hcs : l.csLow = false) (hne : bs ≠ [])
    (hlead : bs.head? ≠ some 0x5A#8) : windowTaken l false bs = true := by
  cases bs with
  | nil => exact absurd rfl hne
  | cons b bs =>
    have hb : b ≠ Config.fetchLead := fun h => hlead (congrArg some h)
    simp [windowTaken, hrst, hcs, hb]

/-- A window of a link that is not EXECUTING is taken as a frame. -/
theorem exec_window_idle {s : State} {p : Port} {bits : List Bool} {bs : List Byte} (hbits : bytesOfBits bits = bs)
    (htaken : windowTaken (s.links.get p) false bs = true) (hstate : (s.links.get p).state ≠ .executing) :
    exec (.requestWindowClose p false bits) s = .next (takeFrame p bs (shiftZeros p bs.length s)) := by
  rw [exec_requestWindowClose]
  simp only [execRequestWindowClose, hbits, htaken, if_true]
  split
  · rename_i h; exact absurd h hstate
  · rfl
  · rfl

/-- A window of an EXECUTING link is dropped, but for a port reset. -/
theorem exec_window_executing {s : State} {p : Port} {bits : List Bool} {bs : List Byte} (hbits : bytesOfBits bits = bs)
    (htaken : windowTaken (s.links.get p) false bs = true) (hstate : (s.links.get p).state = .executing) :
    exec (.requestWindowClose p false bits) s = .next (dropFrame p bs (shiftZeros p bs.length s)) := by
  rw [exec_requestWindowClose]
  simp only [execRequestWindowClose, hbits, htaken, if_true, hstate]

/-- Settles O4: the frame is read back from the bits and examined as its request, or as the port reset. -/
theorem requestFrameIsAccepted : Obligations.RequestFrameIsAccepted := by
  unfold Obligations.RequestFrameIsAccepted
  intro s p k ep seq pl extra hpl hextra hrst hcs
  have hbits := bytesOfBits_bitsOfBytes hextra (requestFrame k ep seq pl)
  have htaken : windowTaken (s.links.get p) false (requestFrame k ep seq pl) = true := by
    refine windowTaken_of_open hrst hcs (by rw [requestFrame_eq]; simp) ?_
    rw [requestFrame_eq, List.head?_cons]
    exact fun h => code_ne_fetchLead k (Option.some.inj h)
  have hexamine := examineFrame_requestFrame k ep seq hpl
  refine ⟨fun hk hstate => ?_, ?_⟩
  · rw [if_neg hk] at hexamine
    rw [exec_window_idle hbits htaken hstate]
    simp only [takeFrame, hexamine, acceptWork, shiftZeros, State.setLink, length_requestFrame, PerPort.get_set_same,
      PerPort.set_set]
  · rintro rfl
    rw [if_pos rfl] at hexamine
    have hreset : exec (.portReset p pl) s = .next (portResetAt p (shiftZeros p (6 + pl.length) s)) := by
      have hno : ¬((s.links.get p).rstLow ∨ (s.links.get p).csLow ∨ Config.maxRequestPayload < pl.length) := by
        simp [hrst, hcs, Config.maxRequestPayload, hpl]
      exact if_neg hno
    rw [hreset]
    by_cases hstate : (s.links.get p).state = .executing
    · rw [exec_window_executing hbits htaken hstate]
      simp only [dropFrame, hexamine, length_requestFrame]
    · rw [exec_window_idle hbits htaken hstate]
      simp only [takeFrame, hexamine, length_requestFrame]

/-- A frame that fails a check is answered by the link itself. -/
theorem exec_badFrame {s : State} {p : Port} {bs : List Byte} {cause : FrameCause}
    (htaken : windowTaken (s.links.get p) false bs = true) (hstate : (s.links.get p).state ≠ .executing)
    (h : examineFrame bs = .badFrame cause (bs.getD 2 0#8)) :
    exec (.requestWindowClose p false (bitsOfBytes bs)) s =
      .next (putReply (attentionPending s p) p (bs.getD 2 0#8) .badFrame (cause.code :: put16 (min bs.length 65535))
        (shiftZeros p bs.length s)) := by
  rw [exec_window_idle (bytesOfBits_bitsOfBytes_self bs) htaken hstate]
  simp only [takeFrame, h]
  rfl

/-- A frame of an unknown kind is answered by the link itself. -/
theorem exec_badKind {s : State} {p : Port} {bs : List Byte}
    (htaken : windowTaken (s.links.get p) false bs = true) (hstate : (s.links.get p).state ≠ .executing)
    (h : examineFrame bs = .badKind (bs.getD 0 0#8) (bs.getD 2 0#8)) :
    exec (.requestWindowClose p false (bitsOfBytes bs)) s =
      .next (putReply (attentionPending s p) p (bs.getD 2 0#8) .badKind [bs.getD 0 0#8] (shiftZeros p bs.length s)) := by
  rw [exec_window_idle (bytesOfBits_bitsOfBytes_self bs) htaken hstate]
  simp only [takeFrame, h]
  rfl

/-- Settles O5: the checks of R150 in order, each with the link's own answer. -/
theorem malformedFrameIsAnswered : Obligations.MalformedFrameIsAnswered := by
  unfold Obligations.MalformedFrameIsAnswered
  intro s p bs hne hlead hrst hcs hstate l answered
  have htaken := windowTaken_of_open hrst hcs hne hlead
  have hbad : ∀ cause : FrameCause, examineFrame bs = .badFrame cause (bs.getD 2 0#8) →
      answered .badFrame (cause.code :: put16 (min bs.length 65535)) := fun cause h => by
    simp only [answered, exec_badFrame htaken hstate h, putReply, shiftZeros, State.setLink, PerPort.get_set_same,
      PerPort.set_set, attentionPending_eq_decide]
    rfl
  refine ⟨fun hshort => hbad .short ?_, fun hlong hlen => hbad .length ?_, fun hlong hmax hlen hcrc => hbad .crc ?_,
    fun hlong hmax hlen hcrc hkind => ?_⟩
  · simp only [examineFrame, if_pos hshort]
  · have h1 : ¬bs.length < 6 := by omega
    have h2 : Config.maxRequestPayload < num16 bs 3 ∨ bs.length ≠ 6 + num16 bs 3 := hlen
    simp only [examineFrame, if_neg h1, if_pos h2]
  · have h1 : ¬bs.length < 6 := by omega
    have h2 : ¬(Config.maxRequestPayload < num16 bs 3 ∨ bs.length ≠ 6 + num16 bs 3) := by
      simp only [Config.maxRequestPayload]
      omega
    simp only [examineFrame, if_neg h1, if_neg h2, if_pos hcrc]
  · have hexamine := examineFrame_of_checks hlong hmax hlen hcrc
    rw [ofCode?_eq_none hkind] at hexamine
    simp only [answered, exec_badKind htaken hstate hexamine, putReply, shiftZeros, State.setLink, PerPort.get_set_same,
      PerPort.set_set, attentionPending_eq_decide]
    rfl

/-! ### Held and busy links (R151, R156) -/

theorem windowTaken_of_rstLow {l : Link} {held : Bool} {bs : List Byte} (h : l.rstLow = true) :
    windowTaken l held bs = false := by simp [windowTaken, h]

theorem windowTaken_of_csLow {l : Link} {held : Bool} {bs : List Byte} (h : l.csLow = true) :
    windowTaken l held bs = false := by simp [windowTaken, h]

theorem windowTaken_of_held (l : Link) (bs : List Byte) : windowTaken l true bs = false := by simp [windowTaken]

/-- A window that is not examined changes nothing. -/
theorem exec_window_ignored {s : State} {p : Port} {held : Bool} {bits : List Bool}
    (h : windowTaken (s.links.get p) held (bytesOfBits bits) = false) :
    exec (.requestWindowClose p held bits) s = .next s := by
  rw [exec_requestWindowClose]
  simp [execRequestWindowClose, h]

theorem setLink_get_self (s : State) (p : Port) : s.setLink p (s.links.get p) = s := by
  simp [State.setLink]

/-- Settles O6: a busy link drops every frame but a port reset, and a held or selected link takes none. -/
theorem busyOrHeldLinkTakesNoFrame : Obligations.BusyOrHeldLinkTakesNoFrame := by
  unfold Obligations.BusyOrHeldLinkTakesNoFrame
  refine ⟨fun s p bs hne hlead hrst hcs hstate hnot => ?dropped, fun s p held bits pl => ⟨?rst, ?cs, ?held, ?rise⟩⟩
  case dropped =>
    rw [exec_window_executing (bytesOfBits_bitsOfBytes_self bs) (windowTaken_of_open hrst hcs hne hlead) hstate]
    have hdrop : dropFrame p bs (shiftZeros p bs.length s) =
        (shiftZeros p bs.length s).setLink p { (shiftZeros p bs.length s).links.get p with overrun := true } := by
      unfold dropFrame
      split
      · rename_i payload hreset
        obtain ⟨ep, seq, hlen, hframe⟩ := eq_requestFrame_of_portReset hreset
        exact absurd hframe (hnot ep seq payload hlen)
      all_goals rfl
    rw [hdrop]
    simp only [shiftZeros, State.setLink, PerPort.get_set_same, PerPort.set_set]
  case rst =>
    intro hrst
    exact ⟨exec_window_ignored (windowTaken_of_rstLow hrst), if_pos (.inl hrst), if_pos (.inl hrst), if_pos hrst⟩
  case cs =>
    intro hcs
    refine ⟨exec_window_ignored (windowTaken_of_csLow hcs), ?_, if_pos (.inr (.inl hcs))⟩
    have hopen : exec (.fetchWindowOpen p) s = .next (s.setLink p { s.links.get p with csLow := true }) :=
      if_pos (.inr hcs)
    rw [hopen, ← hcs]
    exact congrArg _ (setLink_get_self s p)
  case held =>
    rintro rfl
    exact exec_window_ignored (windowTaken_of_held _ _)
  case rise => exact ⟨rfl, by simp [sdoDriven, sdoPin, Link.pins]⟩

/-! ### Port resets (R156) -/

/-- A port reset at the link, field by field. -/
theorem resetLink_eq (p : Port) (s : State) : resetLink p s = LinkReset s p := by
  unfold resetLink LinkReset
  dsimp only [State.setLink]
  split
  · rename_i q st pl due hbusy
    by_cases hq : q = p
    · simp [hq, hbusy]
    · simp only [hbusy, hq, if_false, ne_eq, not_false_eq_true, decide_true, Bool.and_true]
      rw [← hbusy]
  · rename_i f bs hbusy
    simp only [hbusy]
    rw [← hbusy]
  · rename_i o hbusy
    simp only [hbusy]
    rw [← hbusy]
  · rename_i hbusy
    simp only [hbusy]
    rw [← hbusy]

/-- With no OPEN session on the port, a port reset is the reset of its link. -/
theorem portResetAt_of_not_open {p : Port} {s : State} (h : (s.sessions.get p).state ≠ .opened) :
    portResetAt p s = LinkReset s p := by
  rw [← resetLink_eq]
  have hkept : (resetLink p s).sessions = s.sessions := by rw [resetLink_frame]
  simp [portResetAt, hkept, h]

theorem exec_portReset {s : State} {p : Port} {pl : List Byte} (hpl : pl.length ≤ 261)
    (hrst : (s.links.get p).rstLow = false) (hcs : (s.links.get p).csLow = false) :
    exec (.portReset p pl) s = .next (portResetAt p (shiftZeros p (6 + pl.length) s)) := by
  have hno : ¬((s.links.get p).rstLow ∨ (s.links.get p).csLow ∨ Config.maxRequestPayload < pl.length) := by
    simp [hrst, hcs, Config.maxRequestPayload, hpl]
  exact if_neg hno

theorem exec_rstnFall {s : State} {p : Port} (hrst : (s.links.get p).rstLow = false) :
    exec (.rstnFall p) s = .next (portResetAt p (s.setLink p { s.links.get p with rstLow := true })) :=
  if_neg (by simp [hrst])

/-- Settles O7: with no OPEN session the port reset is that of the link alone. -/
theorem portResetClearsTheLink : Obligations.PortResetClearsTheLink := by
  unfold Obligations.PortResetClearsTheLink
  intro s p pl hpl hrst hclosed
  refine ⟨fun hcs => ?_, ?_, ?_⟩
  · rw [exec_portReset hpl hrst hcs, portResetAt_of_not_open (by exact hclosed)]
    rfl
  · rw [exec_rstnFall hrst, portResetAt_of_not_open (by exact hclosed)]
    rfl
  · simp [resetByPin, LinkReset, sdoDriven, sdoPin, Link.pins]

/-! ### Fetch windows (R147, R153) -/

theorem exec_fetchWindowOpen {s : State} {p : Port} (hrst : (s.links.get p).rstLow = false)
    (hcs : (s.links.get p).csLow = false) :
    exec (.fetchWindowOpen p) s =
      .next (s.setLink p
        { s.links.get p with
          window := some { reply := (chooseReply s p).1, fromSlot := (chooseReply s p).2 }, progress := 0, csLow := true }) :=
  if_neg (by simp [hrst, hcs])

theorem bareReply_eq (s : State) (p : Port) (st : Status) (seq : Byte) :
    bareReply s p st seq =
      { status := st, seq := seq, overrun := (s.links.get p).overrun, attention := decide ((s.notices.get p).queue ≠ []),
        payload := [] } := by
  rw [← attentionPending_eq_decide]
  rfl

theorem crc8_reply_bytes (r : Reply) : crc8 r.bytes = 0#8 := crc8_append_crc8 _

theorem length_reply_bytes (r : Reply) : r.bytes.length = 6 + r.payload.length := by
  simp [Reply.bytes, Reply.head]
  omega

theorem exec_fetchWindowClose_of_window {s : State} {p : Port} {edges : Nat} {w : FetchWindow}
    (h : (s.links.get p).window = some w) :
    exec (.fetchWindowClose p edges) s =
      .next (s.setLink p (endFetch w (shiftReply w (edges / 8) (s.links.get p)))) := by
  have hexec : exec (.fetchWindowClose p edges) s = execFetchWindowClose p edges s := rfl
  simp only [hexec, execFetchWindowClose, h]

/-- A reply shifted out whole from the slot is consumed. -/
theorem endFetch_whole {w : FetchWindow} {l : Link} (hslot : w.fromSlot = true) (h : w.reply.bytes.length ≤ l.progress) :
    endFetch w l = { l with window := none, progress := 0, csLow := false, state := .ready, slot := none } := by
  simp [endFetch, hslot, h]

/-- A reply that is not the slot's, or not shifted out whole, leaves the slot as it is. -/
theorem endFetch_part {w : FetchWindow} {l : Link} (h : ¬(w.fromSlot = true ∧ w.reply.bytes.length ≤ l.progress)) :
    endFetch w l = { l with window := none, progress := 0, csLow := false } := by
  simp only [endFetch, if_neg h]

/-- Settles O8: the choice at the opening, the end of a window by what was shifted out, and the close of an ignored one. -/
theorem fetchWindowShowsTheReply : Obligations.FetchWindowShowsTheReply := by
  unfold Obligations.FetchWindowShowsTheReply
  refine ⟨fun s p hrst hcs => ?opened, fun s p edges r fromSlot hwindow hprogress => ?closed, fun s p edges hwindow => ?ignored⟩
  case opened =>
    intro l opened bare
    have hexec := exec_fetchWindowOpen hrst hcs
    refine ⟨fun r hstate hslot => ?_, fun hstate => ?_, fun hstate => ?_, ?_, fun t ht => ?_⟩
    · have hchoice : chooseReply s p = (r, true) := by simp only [chooseReply, l] at *; simp only [hstate, hslot]
      simp only [opened, hexec, hchoice]
      rfl
    · have hchoice : chooseReply s p = (bareReply s p .pending l.execSeq, false) := by
        simp only [chooseReply, l] at *; simp only [hstate]
      simp only [opened, hexec, hchoice, bareReply_eq]
      rfl
    · have hchoice : chooseReply s p = (bareReply s p .noReply 0#8, false) := by
        simp only [chooseReply, l] at *; simp only [hstate]
      simp only [opened, hexec, hchoice, bareReply_eq]
      rfl
    · simp [sdoDriven, sdoPin, Link.pins, hcs]
    · rw [hexec] at ht
      cases ht
      simp [sdoDriven, sdoPin, Link.pins, hrst]
  case closed =>
    intro l shifted
    have hexec := exec_fetchWindowClose_of_window (edges := edges) hwindow
    have hmin : (shiftReply { reply := r, fromSlot := fromSlot } (edges / 8) l).progress =
        min (edges / 8) (6 + r.payload.length) := by
      simp only [shiftReply, l, hprogress, Nat.zero_add, length_reply_bytes]
    have hlink : { shiftReply { reply := r, fromSlot := fromSlot } (edges / 8) l with
          window := none, progress := 0, csLow := false } =
        { l with window := none, csLow := false, sdo := shifted } := by
      simp only [shiftReply, l, hprogress, Nat.zero_add, shifted, shiftedOut]
    refine ⟨crc8_reply_bytes r, length_reply_bytes r, fun hslot hwhole => ?_, fun hpart => ?_, fun t ht => ?_⟩
    · rw [hexec, endFetch_whole hslot (by rw [hmin, length_reply_bytes]; exact le_min hwhole le_rfl)]
      exact congrArg (fun k : Link => Host.Outcome.next (s.setLink p { k with state := .ready, slot := none })) hlink
    · have hnot : ¬(fromSlot = true ∧
          r.bytes.length ≤ (shiftReply { reply := r, fromSlot := fromSlot } (edges / 8) l).progress) := by
        rw [hmin, length_reply_bytes]
        rintro ⟨hslot, hle⟩
        obtain hslot' | hlt := hpart
        · rw [hslot'] at hslot; cases hslot
        · omega
      rw [hexec, endFetch_part hnot]
      exact congrArg (fun k : Link => Host.Outcome.next (s.setLink p k)) hlink
    · rw [hexec] at ht
      cases ht
      obtain ⟨-, -, hcs⟩ := endFetch_closes { reply := r, fromSlot := fromSlot }
        (shiftReply { reply := r, fromSlot := fromSlot } (edges / 8) (s.links.get p))
      simp [sdoDriven, sdoPin, Link.pins, hcs]
  case ignored =>
    have hexec : exec (.fetchWindowClose p edges) s = execFetchWindowClose p edges s := rfl
    simp only [hexec, execFetchWindowClose, hwindow]
    rfl

end Sys2Proof.Machine
end

section
/-! PROOFS. The checks of R154 for every request row, the eviction of a session (R172), and the edits: their coding (R20, R21, R161)
and their staging (R19). -/

namespace Sys2Proof.Machine

/-! ### Edit rows (R161; log 5) -/

theorem editBytes_eq_none {n : Nat} : editBytes n = none ↔ n ∉ [1, 2, 3, 4, 8, 9, 10, 11, 12] := by
  constructor
  · intro h hn
    fin_cases hn <;> cases h
  · intro h
    simp only [List.mem_cons, List.not_mem_nil, or_false, not_or] at h
    unfold editBytes
    split <;> first | rfl | omega

theorem exec_editRow {c : Instr} {p : Port} {code : Nat} (h : editRow c = some (p, code)) (s : State) :
    exec c s = .next (takeEdit p code s) := by
  cases c <;> cases h <;> rfl

/-- The codes of the nine edit kinds. -/
theorem editRow_code {c : Instr} {p : Port} {code : Nat} (h : editRow c = some (p, code)) :
    code ∈ [1, 2, 3, 4, 8, 9, 10, 11, 12] := by
  cases c <;> cases h <;> decide

/-- An EDIT row takes the EDIT that names its kind, and one that names none. -/
theorem editRowTakes_of_names {c : Instr} {p : Port} {code : Nat} {w : Work} (hrow : editRow c = some (p, code))
    (h : rowNames c w.payload) : editRowTakes code w = true := by
  obtain hcode | hnone := h p code hrow
  · simp [editRowTakes, hcode]
  · cases hpl : w.payload with
    | nil => simp [editRowTakes, hpl]
    | cons b pl =>
      have hb : editBytes b.toNat = none := editBytes_eq_none.2 fun hmem => hnone _ hmem (by rw [hpl]; rfl)
      simp [editRowTakes, hpl, hb]

/-- An EDIT row with the EDIT in work that it takes. -/
theorem takeEdit_eq {p : Port} {code : Nat} {s : State} {w : Work} (hw : untaken p .edit s = some w)
    (htakes : editRowTakes code w = true) : takeEdit p code s = takeWork p w (stageEdit p) s := by
  simp [takeEdit, hw, htakes]

/-! ### The checks of R154 -/

/-- A request row that is no EDIT row. -/
theorem exec_requestRow {c : Instr} {p : Port} {k : Kind} (hrow : requestRow c = some (p, k)) (hedit : editRow c = none)
    (s : State) : ∃ act, exec c s = .next (takeRequest p k act s) := by
  cases c
  all_goals first
    | (cases hrow; done)
    | (cases hedit; done)
    | (cases hrow; exact ⟨_, rfl⟩)

theorem kind_of_editRow {c : Instr} {p q : Port} {k : Kind} {code : Nat} (hrow : requestRow c = some (p, k))
    (hedit : editRow c = some (q, code)) : q = p ∧ k = .edit := by
  cases c <;> cases hedit <;> cases hrow <;> exact ⟨rfl, rfl⟩

/-- A request that a check of R154 refuses is answered without a payload, whatever its row. -/
theorem exec_refused {c : Instr} {s : State} {p : Port} {k : Kind} {ep : Byte} {pl : List Byte} {st : Status}
    (hrow : requestRow c = some (p, k)) (hwork : InWork s p k ep pl) (hnames : rowNames c pl)
    (hc : sessionCheck p { kind := k, epoch := ep, payload := pl, posted := false } s = some st) :
    exec c s = .next (Replied s p st []) := by
  have hw := untaken_eq_some.2 ⟨hwork, rfl, rfl⟩
  cases hedit : editRow c with
  | none =>
    obtain ⟨act, hexec⟩ := exec_requestRow hrow hedit s
    rw [hexec, takeRequest_refused hw hc, fillReply_eq_replied]
  | some row =>
    obtain ⟨q, code⟩ := row
    obtain ⟨rfl, rfl⟩ := kind_of_editRow hrow hedit
    rw [exec_editRow hedit, takeEdit_eq hw (editRowTakes_of_names hedit hnames)]
    simp only [takeWork, hc, fillReply_eq_replied]

theorem needsSession_iff {k : Kind} : needsSession k = true ↔ ¬(k = .identify ∨ k = .openSession) := by
  cases k <;> decide

theorem lengthOk_iff {k : Kind} {n : Nat} : k.lengthOk n = true ↔ k.payloadRange.1 ≤ n ∧ n ≤ k.payloadRange.2 := by
  simp [Kind.lengthOk]

/-- Settles O11: one check of R154 after the other decides the status of the refusal. -/
theorem sessionChecksInOrder : Obligations.SessionChecksInOrder := by
  unfold Obligations.SessionChecksInOrder
  intro s c p k ep pl hrow hwork hnames x answered free
  have hrefused : ∀ st, sessionCheck p { kind := k, epoch := ep, payload := pl, posted := false } s = some st →
      answered st := fun st => exec_refused hrow hwork hnames
  have hneeds : needsSession k = true ↔ ¬free := needsSession_iff
  have hsup : ∀ {q : Prop}, (k ∈ supervisorKinds → q) → isSupervisorKind k = true → q :=
    fun h hk => h ((isSupervisorKind_iff k).1 hk)
  refine ⟨fun hk hbad => ?_, fun hk hfree hclosed => ?_, fun hk hfree hopen hep => ?_, fun hk hok hlen => ?_⟩
  all_goals apply hrefused; simp only [sessionCheck]
  · rw [if_pos ⟨(isSupervisorKind_iff k).2 hk, hbad⟩]
  · rw [if_neg fun h => hk ((isSupervisorKind_iff k).1 h.1), if_pos ⟨hneeds.2 hfree, hclosed⟩]
  · have h1 : ¬(isSupervisorKind k = true ∧ (p ≠ s.supv ∨ (s.sessions.get p).state ≠ .opened)) := by
      rintro ⟨hkind, hp | hs⟩
      · exact hp (hsup hk hkind)
      · exact hs hopen
    rw [if_neg h1, if_neg fun h => h.2 hopen, if_pos ⟨hneeds.2 hfree, hep⟩]
  · have hopen : needsSession k = true → x.state = .opened ∧ ep = x.epoch := fun h => hok.resolve_left (hneeds.1 h)
    have hkindNeeds : isSupervisorKind k = true → needsSession k = true := by cases k <;> decide
    have h1 : ¬(isSupervisorKind k = true ∧ (p ≠ s.supv ∨ (s.sessions.get p).state ≠ .opened)) := by
      rintro ⟨hkind, hp | hs⟩
      · exact hp (hsup hk hkind)
      · exact hs (hopen (hkindNeeds hkind)).1
    have h4 : ¬k.lengthOk pl.length = true := by
      rw [lengthOk_iff]
      omega
    rw [if_neg h1, if_neg fun h => h.2 (hopen h.1).1, if_neg fun h => h.2 (hopen h.1).2, if_pos h4]

/-! ### SUP_EVICT_SESSION (R172) -/

/-- Settles O17: the cases of R172 in order. -/
theorem evictSessionAnswers : Obligations.EvictSessionAnswers := by
  unfold Obligations.EvictSessionAnswers
  intro s u b hadm
  have hsupv : u = s.supv := hadm.2.2 (by decide)
  rw [exec_of_admitted (supEvictSession u) rfl hadm rfl]
  simp only [supEvictSession, num8_cons_zero, fillReply_eq_replied]
  refine ⟨fun hbig => ?_, fun hself => ?_, fun q hne hq => ?_⟩
  · rw [Port.ofNat?_eq_none.2 hbig]
  · rw [hself, Port.ofNat?_toNat]
    simp [hsupv]
  · have hport : q ≠ s.supv := hsupv ▸ hne
    simp only [hq, Port.ofNat?_toNat, if_neg hport]
    refine ⟨fun hidle => ?_, fun hclosing => ?_, fun w hopen hlabel => ?_⟩
    · simp only [hidle]; rfl
    · simp only [hclosing]; rfl
    · refine ⟨_, rfl, ?_, ?_⟩
      · simp [hopen, Replied]
      · simp [hopen, hlabel, Replied, putLabel]

/-! ### Fields of an EDIT payload (R161) -/

theorem num8_lt (pl : List Byte) (i : Nat) : num8 pl i < 256 := (pl.getD i 0#8).isLt

theorem num16_lt (pl : List Byte) (i : Nat) : num16 pl i < 65536 := by
  have h0 := num8_lt pl i
  have h1 := num8_lt pl (i + 1)
  simp only [num16]
  omega

theorem getD_drop_one (pl : List Byte) (i : Nat) : (pl.drop 1).getD i 0#8 = pl.getD (i + 1) 0#8 := by
  cases pl <;> simp

theorem num8_drop_one (pl : List Byte) (i : Nat) : num8 (pl.drop 1) i = num8 pl (i + 1) := by
  simp only [num8, getD_drop_one]

theorem num16_drop_one (pl : List Byte) (i : Nat) : num16 (pl.drop 1) i = num16 pl (i + 1) := by
  simp only [num16, num8_drop_one]

theorem colourAt_drop_one (pl : List Byte) (i : Nat) : colourAt (pl.drop 1) i = colourAt pl (i + 1) := by
  simp only [colourAt, getD_drop_one]

theorem bandNumberAt_eq_some {pl : List Byte} {i : Nat} {n : Fin 8} : bandNumberAt pl i = some n ↔ num8 pl i = n.val := by
  unfold bandNumberAt
  split
  · rw [Option.some_inj, Fin.ext_iff]
  · rename_i h
    have := n.isLt
    simp
    omega

theorem bandNumberAt_eq_none {pl : List Byte} {i : Nat} (h : 7 < num8 pl i) : bandNumberAt pl i = none :=
  dif_neg (by omega)

theorem handleAt_eq_some {pl : List Byte} {i : Nat} {h : Handle} :
    handleAt pl i = some h ↔ num8 pl i = h.index.val ∧ pl.getD (i + 1) 0#8 = h.gen := by
  unfold handleAt
  obtain ⟨index, gen⟩ := h
  split
  · rw [Option.some_inj, Handle.mk.injEq, Fin.ext_iff]
  · rename_i hn
    have := index.isLt
    simp
    omega

/-- An EDIT payload of the wrong length carries no edit. -/
theorem parseEdit_of_length_ne {p : Port} {pl : List Byte} (h : editBytes (num8 pl 0) ≠ some (pl.drop 1).length) :
    parseEdit p pl = none := if_pos h

/-- The reading of the fields behind the kind byte, by the kind (R20, R21). -/
def parseFields (p : Port) (f : List Byte) : Nat → Option Edit
  | 1 => parseBandPut p f
  | 2 => parseBandDrop f
  | 3 => parseBandView f
  | 4 => parseBandSurface f
  | 8 => parseSetTiming f
  | 9 => parseSetRegion f
  | 10 => some (.setBackground (colourAt f 0))
  | 11 => some (.setStaleColour (colourAt f 0))
  | 12 => parseEvictBand f
  | _ => none

/-- An EDIT payload of the right length is read by its kind. -/
theorem parseEdit_of_length {p : Port} {pl : List Byte} {code bytes : Nat} (hcode : num8 pl 0 = code)
    (hbytes : editBytes code = some bytes) (hlen : pl.length = 1 + bytes) :
    parseEdit p pl = parseFields p (pl.drop 1) code := by
  have h : ¬editBytes (num8 pl 0) ≠ some (pl.drop 1).length := by
    rw [hcode, hbytes, List.length_drop, hlen]
    simp
  unfold parseEdit
  dsimp only
  rw [if_neg h, hcode]
  rfl

/-- The part of a BAND_PUT record in the fields of the payload. -/
theorem parseBandPart_eq_some {f : List Byte} {part : BandPart} :
    parseBandPart f = some part ↔
      (num8 f 6 = 1 ∧ num16 f 9 ≤ 2047 ∧ num16 f 11 ≤ 1023 ∧
          ∃ h, handleAt f 7 = some h ∧ part = .surface h (num16 f 9) (num16 f 11)) ∨
        (num8 f 6 = 2 ∧ part = .fill (colourAt f 13)) := by
  unfold parseBandPart
  by_cases h1 : num8 f 6 = 1
  · rw [if_pos h1]
    cases hh : handleAt f 7 with
    | none => simp [h1]
    | some h =>
      by_cases hr : num16 f 9 ≤ 2047 ∧ num16 f 11 ≤ 1023
      · simp [h1, hr, eq_comm]
      · simp only [if_neg hr]
        simp only [reduceCtorEq, false_iff]
        rintro (⟨-, hx, hy, -⟩ | ⟨h2, -⟩)
        · exact hr ⟨hx, hy⟩
        · omega
  · rw [if_neg h1]
    by_cases h2 : num8 f 6 = 2
    · simp [h2, eq_comm]
    · simp [h1, h2]

theorem parseBandPut_eq_some {p : Port} {f : List Byte} {e : Edit} :
    parseBandPut p f = some e ↔
      ∃ n part, bandNumberAt f 0 = some n ∧ parseBandPart f = some part ∧
        num16 f 2 ≤ 767 ∧ 1 ≤ num16 f 4 ∧ num16 f 4 ≤ 768 ∧
        e = .bandPut
          { key := ⟨p, n⟩, first := num16 f 2, count := num16 f 4, part := part, staleLimit := num8 f 16 } := by
  unfold parseBandPut
  cases hn : bandNumberAt f 0 with
  | none => simp
  | some n =>
    cases hp : parseBandPart f with
    | none => simp
    | some part =>
      by_cases hr : num16 f 2 ≤ 767 ∧ 1 ≤ num16 f 4 ∧ num16 f 4 ≤ 768
      · simp [hr, eq_comm]
      · simp only [if_neg hr]
        simp only [reduceCtorEq, false_iff]
        rintro ⟨n', part', hn', -, h1, h2, h3, -⟩
        exact hr ⟨h1, h2, h3⟩

theorem parseBandView_eq_some {f : List Byte} {e : Edit} :
    parseBandView f = some e ↔
      ∃ n, bandNumberAt f 0 = some n ∧ num16 f 1 ≤ 2047 ∧ num16 f 3 ≤ 1023 ∧ e = .bandView n (num16 f 1) (num16 f 3) := by
  unfold parseBandView
  cases bandNumberAt f 0 with
  | none => simp
  | some n =>
    by_cases hr : num16 f 1 ≤ 2047 ∧ num16 f 3 ≤ 1023
    · simp [hr, eq_comm]
    · simp only [if_neg hr]
      simp only [reduceCtorEq, false_iff]
      rintro ⟨n', -, h1, h2, -⟩
      exact hr ⟨h1, h2⟩

theorem parseBandSurface_eq_some {f : List Byte} {e : Edit} :
    parseBandSurface f = some e ↔
      ∃ n h, bandNumberAt f 0 = some n ∧ handleAt f 1 = some h ∧ e = .bandSurface n h := by
  unfold parseBandSurface
  cases bandNumberAt f 0 with
  | none => simp
  | some n =>
    cases handleAt f 1 with
    | none => simp
    | some h => simp [eq_comm]

theorem parseSetRegion_eq_some {f : List Byte} {e : Edit} :
    parseSetRegion f = some e ↔
      ∃ q : Port, q.toNat = num8 f 0 ∧ num16 f 1 ≤ 767 ∧ num16 f 3 ≤ 767 ∧ num16 f 1 ≤ num16 f 3 ∧
        e = .setRegion q { top := num16 f 1, bottom := num16 f 3 } := by
  unfold parseSetRegion
  simp only [← Port.ofNat?_eq_some]
  cases Port.ofNat? (num8 f 0) with
  | none => simp
  | some q =>
    by_cases hr : num16 f 1 ≤ 767 ∧ num16 f 3 ≤ 767 ∧ num16 f 1 ≤ num16 f 3
    · simp [hr, eq_comm]
    · simp only [if_neg hr]
      simp only [reduceCtorEq, false_iff]
      rintro ⟨q', -, h1, h2, h3, -⟩
      exact hr ⟨h1, h2, h3⟩

theorem parseEvictBand_eq_some {f : List Byte} {e : Edit} :
    parseEvictBand f = some e ↔
      ∃ (q : Port) (n : Fin 8), q.toNat = num8 f 0 ∧ bandNumberAt f 1 = some n ∧ e = .evictBand ⟨q, n⟩ := by
  unfold parseEvictBand
  simp only [← Port.ofNat?_eq_some]
  cases Port.ofNat? (num8 f 0) with
  | none => simp
  | some q =>
    cases bandNumberAt f 1 with
    | none => simp
    | some n => simp [eq_comm]

/-- An edit that is read from a payload is read from its fields, with the kind's number of bytes behind the kind byte. -/
theorem parseFields_of_parseEdit {p : Port} {pl : List Byte} {e : Edit} (h : parseEdit p pl = some e) :
    parseFields p (pl.drop 1) (num8 pl 0) = some e := by
  unfold parseEdit at h
  dsimp only at h
  split at h
  · cases h
  · exact h

/-- Every edit that is read could be staged (R20, R21). -/
theorem stageable_of_parseFields {p : Port} {f : List Byte} {e : Edit} {code : Nat} (h : parseFields p f code = some e) :
    e.stageable p = true := by
  have hbyte : ∀ i, num8 f i ≤ 255 := fun i => Nat.le_of_lt_succ (num8_lt f i)
  unfold parseFields at h
  split at h
  · obtain ⟨n, part, -, hpart, hfirst, hmin, hmax, rfl⟩ := parseBandPut_eq_some.1 h
    obtain ⟨-, hx, hy, g, -, rfl⟩ | ⟨-, rfl⟩ := parseBandPart_eq_some.1 hpart
    · simp [Edit.stageable, hfirst, hmin, hmax, hbyte, hx, hy]
    · simp [Edit.stageable, hfirst, hmin, hmax, hbyte]
  · obtain ⟨n, -, rfl⟩ := Option.map_eq_some_iff.1 h
    rfl
  · obtain ⟨n, -, hx, hy, rfl⟩ := parseBandView_eq_some.1 h
    simp [Edit.stageable, hx, hy]
  · obtain ⟨n, g, -, -, rfl⟩ := parseBandSurface_eq_some.1 h
    rfl
  · cases h
    simp [Edit.stageable, num16_lt, num8_lt]
  · obtain ⟨q, -, htop, hbottom, hle, rfl⟩ := parseSetRegion_eq_some.1 h
    simp [Edit.stageable, htop, hbottom, hle]
  · cases h; rfl
  · cases h; rfl
  · obtain ⟨q, n, -, -, rfl⟩ := parseEvictBand_eq_some.1 h
    rfl
  · cases h

/-! ### Edits written and read (R161) -/

theorem num8_put8 {n : Nat} (h : n ≤ 255) (rest : List Byte) : num8 (put8 n ++ rest) 0 = n := by
  simp only [num8, put8, List.cons_append, List.nil_append, List.getD_cons_zero, BitVec.toNat_ofNat]
  omega

theorem num8_number (n : Fin 8) (rest : List Byte) : num8 (BitVec.ofNat 8 n.val :: rest) 0 = n.val := by
  have := n.isLt
  simp only [num8_cons_zero, BitVec.toNat_ofNat]
  omega

theorem bandNumberAt_number (n : Fin 8) (rest : List Byte) : bandNumberAt (BitVec.ofNat 8 n.val :: rest) 0 = some n :=
  bandNumberAt_eq_some.2 (num8_number n rest)

theorem num8_portByte (q : Port) (rest : List Byte) : num8 (portByte q :: rest) 0 = q.toNat := by
  cases q <;> rfl

/-- A handle written ahead of other bytes is read back (R160). -/
theorem handleAt_putHandle_append (h : Handle) (rest : List Byte) : handleAt (putHandle h ++ rest) 0 = some h := by
  have := h.index.isLt
  refine handleAt_eq_some.2 ⟨?_, rfl⟩
  simp only [putHandle, List.cons_append, num8_cons_zero, BitVec.toNat_ofNat]
  omega

theorem setWidth_roundTrip (x : BitVec 6) : (x.setWidth 8).setWidth 6 = x := by
  revert x
  decide

theorem colourAt_putColour (c : Colour) (rest : List Byte) : colourAt (putColour c ++ rest) 0 = c := by
  obtain ⟨r, g, b⟩ := c
  simp only [colourAt, putColour, List.cons_append, List.getD_cons_zero, List.getD_cons_succ, setWidth_roundTrip]

theorem handleAt_cons (b : Byte) (pl : List Byte) (i : Nat) : handleAt (b :: pl) (i + 1) = handleAt pl i := rfl

theorem colourAt_cons (b : Byte) (pl : List Byte) (i : Nat) : colourAt (b :: pl) (i + 1) = colourAt pl i := rfl

theorem handleAt_append_two {a : List Byte} (h : a.length = 2) (rest : List Byte) (i : Nat) :
    handleAt (a ++ rest) (i + 2) = handleAt rest i := by
  match a, h with
  | [x, y], _ => rfl

theorem colourAt_append_two {a : List Byte} (h : a.length = 2) (rest : List Byte) (i : Nat) :
    colourAt (a ++ rest) (i + 2) = colourAt rest i := by
  match a, h with
  | [x, y], _ => rfl

/-- The part of a band record is read back from its fields, whatever stands ahead of them. -/
theorem parseBandPart_putBandPart {part : BandPart} {a : List Byte} (ha : a.length = 6) (rest : List Byte)
    (hrange : ∀ h x y, part = .surface h x y → x ≤ 2047 ∧ y ≤ 1023) :
    parseBandPart (a ++ (putBandPart part ++ rest)) = some part := by
  match a, ha with
  | [_, _, _, _, _, _], _ =>
    cases part with
    | surface h x y =>
      obtain ⟨hx, hy⟩ := hrange h x y rfl
      refine parseBandPart_eq_some.2 (.inl ⟨rfl, ?_⟩)
      have hbytes : putBandPart (.surface h x y) ++ rest =
          1#8 :: (putHandle h ++ (put16 x ++ (put16 y ++ (putColour Colour.black ++ rest)))) := by simp [putBandPart]
      rw [hbytes]
      simp only [List.cons_append, List.nil_append, num16_cons_succ, handleAt_cons, handleAt_putHandle_append,
        num16_append_two (length_putHandle h), num16_append_two (length_put16 x) _ 0, num16_put16 (n := x) (by omega),
        num16_put16 (n := y) (by omega)]
      exact ⟨hx, hy, h, rfl, rfl⟩
    | fill c =>
      have hread : colourAt (putColour c ++ rest) 0 = c := colourAt_putColour c rest
      exact parseBandPart_eq_some.2 (.inr ⟨rfl, congrArg BandPart.fill hread.symm⟩)

/-- A stageable edit is read back from the fields behind the kind byte. -/
theorem parseFields_putEdit {p : Port} {e : Edit} (h : e.stageable p = true) :
    parseFields p ((putEdit e).drop 1) (num8 (putEdit e) 0) = some e := by
  cases e with
  | bandPut b =>
    obtain ⟨⟨owner, n⟩, first, count, part, limit⟩ := b
    simp only [Edit.stageable, Bool.and_eq_true, decide_eq_true_eq] at h
    obtain ⟨⟨⟨⟨⟨rfl, hfirst⟩, hmin⟩, hmax⟩, hlimit⟩, hpart⟩ := h
    have hrange : ∀ h x y, part = .surface h x y → x ≤ 2047 ∧ y ≤ 1023 := by
      rintro h x y rfl
      simpa using hpart
    have hfields : (putEdit (.bandPut ⟨⟨owner, n⟩, first, count, part, limit⟩)).drop 1 =
        (BitVec.ofNat 8 n.val :: portByte owner :: (put16 first ++ put16 count)) ++ (putBandPart part ++ put8 limit) := by
      simp [putEdit]
    have hlimitRead : num8 ((BitVec.ofNat 8 n.val :: portByte owner :: (put16 first ++ put16 count)) ++
        (putBandPart part ++ put8 limit)) 16 = limit := by
      have hput : (putBandPart part).length = 10 := by cases part <;> rfl
      obtain ⟨a, ha⟩ : ∃ a, putBandPart part = a := ⟨_, rfl⟩
      rw [ha] at hput ⊢
      match a, hput with
      | [_, _, _, _, _, _, _, _, _, _], _ => exact num8_put8 (n := limit) hlimit []
    rw [hfields]
    refine parseBandPut_eq_some.2 ⟨n, part, bandNumberAt_number n _, parseBandPart_putBandPart rfl _ hrange, ?_⟩
    simp only [List.cons_append, num16_cons_succ] at hlimitRead ⊢
    rw [hlimitRead, List.append_assoc, num16_put16 (by omega), num16_append_two (length_put16 first) _ 0,
      num16_put16 (by omega)]
    exact ⟨hfirst, hmin, hmax, rfl⟩
  | bandDrop n => exact congrArg (Option.map Edit.bandDrop) (bandNumberAt_number n [])
  | bandView n x y =>
    simp only [Edit.stageable, Bool.and_eq_true, decide_eq_true_eq] at h
    have hx : num16 (BitVec.ofNat 8 n.val :: (put16 x ++ put16 y)) 1 = x := num16_put16 (n := x) (by omega) (put16 y)
    have hy : num16 (BitVec.ofNat 8 n.val :: (put16 x ++ put16 y)) 3 = y := num16_put16 (n := y) (by omega) []
    refine parseBandView_eq_some.2 ⟨n, bandNumberAt_number n _, ?_⟩
    change num16 (BitVec.ofNat 8 n.val :: (put16 x ++ put16 y)) 1 ≤ 2047 ∧
      num16 (BitVec.ofNat 8 n.val :: (put16 x ++ put16 y)) 3 ≤ 1023 ∧
      Edit.bandView n x y = .bandView n (num16 (BitVec.ofNat 8 n.val :: (put16 x ++ put16 y)) 1)
        (num16 (BitVec.ofNat 8 n.val :: (put16 x ++ put16 y)) 3)
    rw [hx, hy]
    exact ⟨h.1, h.2, rfl⟩
  | bandSurface n g =>
    exact parseBandSurface_eq_some.2 ⟨n, g, bandNumberAt_number n _, handleAt_putHandle g, rfl⟩
  | setTiming t =>
    simp only [Edit.stageable, Bool.and_eq_true, decide_eq_true_eq] at h
    obtain ⟨⟨⟨⟨hhdw, hhnd⟩, hvdl⟩, hvnd⟩, hdiv⟩ := h
    have h0 : num16 ((putEdit (.setTiming t)).drop 1) 0 = t.hdw := num16_put16 hhdw _
    have h2 : num16 ((putEdit (.setTiming t)).drop 1) 2 = t.hnd := num16_put16 hhnd (put16 t.vdl ++ put16 t.vnd ++ put8 t.divider)
    have h4 : num16 ((putEdit (.setTiming t)).drop 1) 4 = t.vdl := num16_put16 hvdl (put16 t.vnd ++ put8 t.divider)
    have h6 : num16 ((putEdit (.setTiming t)).drop 1) 6 = t.vnd := num16_put16 hvnd (put8 t.divider)
    have h8 : num8 ((putEdit (.setTiming t)).drop 1) 8 = t.divider := num8_put8 (n := t.divider) (by omega) []
    change parseSetTiming ((putEdit (.setTiming t)).drop 1) = _
    simp only [parseSetTiming, h0, h2, h4, h6, h8]
  | setRegion q r =>
    simp only [Edit.stageable, Bool.and_eq_true, decide_eq_true_eq] at h
    obtain ⟨⟨htop, hbottom⟩, hle⟩ := h
    have h1 : num16 ((putEdit (.setRegion q r)).drop 1) 1 = r.top :=
      num16_put16 (n := r.top) (by omega) (put16 r.bottom)
    have h3 : num16 ((putEdit (.setRegion q r)).drop 1) 3 = r.bottom := num16_put16 (n := r.bottom) (by omega) []
    change parseSetRegion ((putEdit (.setRegion q r)).drop 1) = _
    rw [parseSetRegion_eq_some, h1, h3]
    exact ⟨q, (num8_portByte q _).symm, htop, hbottom, hle, rfl⟩
  | setBackground c => exact congrArg (fun x => some (Edit.setBackground x)) (colourAt_putColour c [])
  | setStaleColour c => exact congrArg (fun x => some (Edit.setStaleColour x)) (colourAt_putColour c [])
  | evictBand k =>
    obtain ⟨q, n⟩ := k
    exact parseEvictBand_eq_some.2 ⟨q, n, (num8_portByte q _).symm, bandNumberAt_number n [], rfl⟩

/-- The length of a written edit is the one its kind asks for. -/
theorem editBytes_putEdit (e : Edit) : editBytes (num8 (putEdit e) 0) = some ((putEdit e).drop 1).length := by
  cases e with
  | bandPut b => cases h : b.part <;> simp [putEdit, h, putBandPart, putColour, put8, editBytes]
  | bandDrop | bandView | bandSurface | setTiming | setRegion | setBackground | setStaleColour | evictBand => rfl

theorem parseEdit_putEdit {p : Port} {e : Edit} (h : e.stageable p = true) : parseEdit p (putEdit e) = some e := by
  rw [← parseFields_putEdit h]
  exact if_neg (by rw [editBytes_putEdit]; simp)

/-- Settles O10: every field is written where it is read. -/
theorem editRoundTrip : Obligations.EditRoundTrip := by
  unfold Obligations.EditRoundTrip
  refine fun p => ⟨fun e he => ⟨parseEdit_putEdit he, ?_⟩, fun pl e h => ?_⟩
  · cases e with
    | bandPut b => cases h : b.part <;> simp [putEdit, h, putBandPart, putColour, put8]
    | bandDrop | bandView | bandSurface | setTiming | setRegion | setBackground | setStaleColour | evictBand =>
      simp [putEdit, putColour, put8]
  · exact stageable_of_parseFields (parseFields_of_parseEdit h)

end Sys2Proof.Machine
end


section
/-! PROOFS. The EDIT rows: the checks of R19 and the fields of R20 and R21. -/

namespace Sys2Proof.Machine

/-! ### The checks of R19 -/

/-- An admitted EDIT is taken by a row that names its kind, and reaches the layout controller. -/
theorem exec_editRow_of_admitted {c : Instr} {s : State} {p : Port} {code : Nat} {pl : List Byte}
    (hrow : editRow c = some (p, code)) (h : Admitted s p .edit pl) (hl : Kind.edit.lengthOk pl.length = true)
    (hnames : rowNames c pl) : exec c s = .next (stageEdit p pl s) := by
  obtain ⟨hwork, hopen, hsup⟩ := h
  rw [exec_editRow hrow, takeEdit_eq (untaken_eq_some.2 ⟨hwork, rfl, rfl⟩) (editRowTakes_of_names hrow hnames), takeWork,
    sessionCheck_none hopen rfl (fun hk => hsup ((isSupervisorKind_iff _).1 hk)) hl]

/-- Settles O30: the checks of R19 one after the other, then the staging. -/
theorem editIsStaged : Obligations.EditIsStaged := by
  unfold Obligations.EditIsStaged
  intro s c p code pl hrow hadm hmin hmax staged answered
  have hl : Kind.edit.lengthOk pl.length = true := lengthOk_iff.2 ⟨hmin, hmax⟩
  obtain ⟨b, rest, rfl⟩ := List.exists_cons_of_length_pos hmin
  refine ⟨fun hcode => ?named, fun hcode => ?unnamed⟩
  case named =>
    have hnames : rowNames c (b :: rest) := fun q code' h => by
      rw [hrow] at h
      cases h
      exact .inl (congrArg some hcode)
    have hkind : ¬editBytes code = none := fun h => editBytes_eq_none.1 h (editRow_code hrow)
    simp only [answered, exec_editRow_of_admitted hrow hadm hl hnames, stageEdit, hcode, if_neg hkind, fillReply_eq_replied]
    refine ⟨fun hsub => ?_, fun hsub hsup hp => ?_, fun hsub hsup hparse => ?_, fun e hsub hsup hparse => ?_⟩
    · rw [if_pos (hasTransaction_iff_submitted.2 hsub)]
    · rw [if_neg (mt hasTransaction_iff_submitted.1 hsub), if_pos ⟨decide_eq_true hsup, hp⟩]
    all_goals
      have hallowed : ¬(isSupervisorEdit code = true ∧ p ≠ s.supv) := fun h =>
        hsup.elim (fun hlt => absurd (of_decide_eq_true h.1) (by omega)) h.2
      rw [if_neg (mt hasTransaction_iff_submitted.1 hsub), if_neg hallowed, hparse]
    refine ⟨fun hfull => ?_, fun hroom => ?_⟩
    · exact congrArg Host.Outcome.next (if_pos hfull)
    · exact congrArg Host.Outcome.next (if_neg (Nat.not_le.2 hroom))
  case unnamed =>
    have hnames : rowNames c (b :: rest) := fun q code' _ =>
      .inr fun n hn h => hcode (by rwa [show num8 (b :: rest) 0 = n from Option.some.inj h])
    have hkind : editBytes (num8 (b :: rest) 0) = none := editBytes_eq_none.2 hcode
    simp only [answered, exec_editRow_of_admitted hrow hadm hl hnames, stageEdit, if_pos hkind, fillReply_eq_replied]
    refine ⟨fun hsub => ?_, fun hsub => ?_⟩
    · rw [if_pos (hasTransaction_iff_submitted.2 hsub)]
    · rw [if_neg (mt hasTransaction_iff_submitted.1 hsub)]

/-! ### The fields of R20 and R21 -/

/-- The number of bytes behind the kind byte of each edit kind (R161). -/
theorem editBytes_of_mem {code bytes : Nat}
    (h : (code, bytes) ∈ [(1, 17), (2, 1), (3, 5), (4, 3), (8, 9), (9, 5), (10, 3), (11, 3), (12, 2)]) :
    editBytes code = some bytes := by
  have hall : ∀ x ∈ [(1, 17), (2, 1), (3, 5), (4, 3), (8, 9), (9, 5), (10, 3), (11, 3), (12, 2)],
      editBytes x.1 = some x.2 := by decide
  exact hall _ h

/-- A surface part with its fields in range is read with the handle, and a fill part with the colour. -/
theorem exists_parseBandPart {f : List Byte}
    (h : (num8 f 6 = 1 ∧ num8 f 7 ≤ 31 ∧ num16 f 9 ≤ 2047 ∧ num16 f 11 ≤ 1023) ∨ num8 f 6 = 2) :
    ∃ part, parseBandPart f = some part ∧
      (num8 f 6 = 1 →
        ∃ g : Handle, part = .surface g (num16 f 9) (num16 f 11) ∧ g.index.val = num8 f 7 ∧ g.gen = f.getD 8 0#8) ∧
      (num8 f 6 = 2 → part = .fill (colourAt f 13)) := by
  obtain ⟨hkind, hindex, hx, hy⟩ | hkind := h
  · have hhandle : handleAt f 7 = some ⟨⟨num8 f 7, by omega⟩, f.getD 8 0#8⟩ := handleAt_eq_some.2 ⟨rfl, rfl⟩
    exact ⟨_, parseBandPart_eq_some.2 (.inl ⟨hkind, hx, hy, _, hhandle, rfl⟩), fun _ => ⟨_, rfl, rfl, rfl⟩, by omega⟩
  · exact ⟨_, parseBandPart_eq_some.2 (.inr ⟨hkind, rfl⟩), by omega, fun _ => rfl⟩

/-- Settles O31: each kind reads its fields behind the kind byte, and nothing when one is out of range. -/
theorem editFieldsAreChecked : Obligations.EditFieldsAreChecked := by
  unfold Obligations.EditFieldsAreChecked
  intro p pl colour
  obtain ⟨f, hf⟩ : ∃ f, pl.drop 1 = f := ⟨_, rfl⟩
  have hbyte : ∀ i, pl.getD (i + 1) 0#8 = f.getD i 0#8 := fun i => by rw [← hf, getD_drop_one]
  have hnum8 : ∀ i, num8 pl (i + 1) = num8 f i := fun i => by rw [← hf, num8_drop_one]
  have hnum16 : ∀ i, num16 pl (i + 1) = num16 f i := fun i => by rw [← hf, num16_drop_one]
  have hcolour : ∀ i, colour (i + 1) = colourAt f i := fun i => by rw [← hf, colourAt_drop_one]; rfl
  have hread : ∀ {code bytes : Nat}, num8 pl 0 = code → editBytes code = some bytes → pl.length = 1 + bytes →
      parseEdit p pl = parseFields p f code := fun h1 h2 h3 => hf ▸ parseEdit_of_length h1 h2 h3
  have hnone : ∀ {o : Option Edit}, (∀ e, o ≠ some e) → o = none := Option.eq_none_iff_forall_ne_some.2
  simp only [hbyte, hnum8, hnum16, hcolour]
  refine ⟨?length, ?bandPut, ?bandDrop, ?bandView, ?bandSurface, ?setTiming, ?setRegion, ?background, ?stale, ?evictBand⟩
  case length =>
    intro code bytes hmem hcode hlen
    refine parseEdit_of_length_ne fun h => hlen ?_
    rw [hcode, editBytes_of_mem hmem, List.length_drop] at h
    have := Option.some.inj h
    have : pl ≠ [] := by
      rintro rfl
      subst hcode
      revert hmem
      simp [num8]
    have := List.length_pos_of_ne_nil this
    omega
  case bandPut =>
    intro hcode hlen
    refine ⟨fun hbad => (hread hcode rfl hlen).trans <| hnone fun e he => hbad ?_, fun hok => ?_⟩
    · obtain ⟨n, part, hn, hpart, hfirst, hmin, hmax, -⟩ := parseBandPut_eq_some.1 he
      have hnum := bandNumberAt_eq_some.1 hn
      have := n.isLt
      refine ⟨by omega, hfirst, hmin, hmax, ?_⟩
      obtain ⟨hkind, hx, hy, g, hg, -⟩ | ⟨hkind, -⟩ := parseBandPart_eq_some.1 hpart
      · have hindex := (handleAt_eq_some.1 hg).1
        have := g.index.isLt
        exact .inl ⟨hkind, by omega, hx, hy⟩
      · exact .inr hkind
    · obtain ⟨hnum, hfirst, hmin, hmax, hkinds⟩ := hok
      obtain ⟨part, hpart, hsurface, hfill⟩ := exists_parseBandPart hkinds
      have hn : bandNumberAt f 0 = some ⟨num8 f 0, by omega⟩ := bandNumberAt_eq_some.2 rfl
      have hput := parseBandPut_eq_some (p := p).2 ⟨_, part, hn, hpart, hfirst, hmin, hmax, rfl⟩
      exact ⟨_, (hread hcode rfl hlen).trans hput, rfl, rfl, rfl, rfl, rfl, hsurface, hfill⟩
  case bandDrop =>
    intro hcode hlen
    refine ⟨fun hbig => (hread hcode rfl hlen).trans <| hnone fun e he => ?_, fun n hn => ?_⟩
    · obtain ⟨n, hn, -⟩ := Option.map_eq_some_iff.1 he
      have hnum := bandNumberAt_eq_some.1 hn
      have := n.isLt
      omega
    · rw [hread hcode rfl hlen]
      exact Option.map_eq_some_iff.2 ⟨n, bandNumberAt_eq_some.2 (by rw [hn]), rfl⟩
  case bandView =>
    intro hcode hlen
    refine ⟨fun hbad => (hread hcode rfl hlen).trans <| hnone fun e he => ?_, fun n hn hx hy => ?_⟩
    · obtain ⟨n, hn, hx, hy, -⟩ := parseBandView_eq_some.1 he
      have hnum := bandNumberAt_eq_some.1 hn
      have := n.isLt
      omega
    · rw [hread hcode rfl hlen]
      exact parseBandView_eq_some.2 ⟨n, bandNumberAt_eq_some.2 hn.symm, hx, hy, rfl⟩
  case bandSurface =>
    intro hcode hlen
    refine ⟨fun hbad => (hread hcode rfl hlen).trans <| hnone fun e he => ?_, fun n h hn hindex hgen => ?_⟩
    · obtain ⟨n, h, hn, hh, -⟩ := parseBandSurface_eq_some.1 he
      have hnum := bandNumberAt_eq_some.1 hn
      have hindex := (handleAt_eq_some.1 hh).1
      have := n.isLt
      have := h.index.isLt
      omega
    · rw [hread hcode rfl hlen]
      refine parseBandSurface_eq_some.2 ⟨n, h, bandNumberAt_eq_some.2 ?_, handleAt_eq_some.2 ⟨?_, ?_⟩, rfl⟩
      · rw [hn]
      · rw [hindex]
      · rw [hgen]
  case setTiming =>
    intro hcode hlen
    rw [hread hcode rfl hlen]
    rfl
  case setRegion =>
    intro hcode hlen
    refine ⟨fun hbad => (hread hcode rfl hlen).trans <| hnone fun e he => ?_, fun q hq hle hmax => ?_⟩
    · obtain ⟨q, hq, htop, hbottom, hle, -⟩ := parseSetRegion_eq_some.1 he
      have : q.toNat ≤ 3 := by cases q <;> decide
      omega
    · rw [hread hcode rfl hlen]
      exact parseSetRegion_eq_some.2 ⟨q, hq, by omega, hmax, hle, rfl⟩
  case background =>
    intro hcode hlen
    rw [hread hcode rfl hlen]
    rfl
  case stale =>
    intro hcode hlen
    rw [hread hcode rfl hlen]
    rfl
  case evictBand =>
    intro hcode hlen
    refine ⟨fun hbad => (hread hcode rfl hlen).trans <| hnone fun e he => ?_, fun q n hq hn => ?_⟩
    · obtain ⟨q, n, hq, hn, -⟩ := parseEvictBand_eq_some.1 he
      have hnum := bandNumberAt_eq_some.1 hn
      have : q.toNat ≤ 3 := by cases q <;> decide
      have := n.isLt
      omega
    · rw [hread hcode rfl hlen]
      refine parseEvictBand_eq_some.2 ⟨q, n, ?_, bandNumberAt_eq_some.2 ?_, rfl⟩
      · rw [hq]
      · rw [hn]

end Sys2Proof.Machine
end


section
/-! PROOFS. Power-on: the state of every block, and the laws (R12, R24, R26, R70, R87, R104, R122, R133, R134, R149, R166, R184). -/

namespace Sys2Proof.Machine

section
variable (v : Port) (k : Fin 4) (pins : PerPort PortPins) (n d : Nat) (waiting : List Instr)

@[simp] theorem powerOn_link (p : Port) :
    (State.powerOn v k pins n d waiting).links.get p = Link.powerOn (pins.get p) := PerPort.get_map _ _ p

@[simp] theorem powerOn_session (p : Port) :
    (State.powerOn v k pins n d waiting).sessions.get p = Session.powerOn := PerPort.get_every _ p

@[simp] theorem powerOn_notices (p : Port) :
    (State.powerOn v k pins n d waiting).notices.get p = NoticeQueue.cleared := PerPort.get_every _ p

@[simp] theorem powerOn_staging (p : Port) :
    (State.powerOn v k pins n d waiting).layout.staging.get p = [] := PerPort.get_every _ p

@[simp] theorem powerOn_record (p : Port) :
    (State.powerOn v k pins n d waiting).layout.record.get p = .noSubmit := PerPort.get_every _ p

@[simp] theorem powerOn_region (p : Port) :
    (State.powerOn v k pins n d waiting).layout.active.regions.get p = Region.whole := PerPort.get_every _ p

@[simp] theorem powerOn_palRecord (p : Port) :
    (State.powerOn v k pins n d waiting).pal.records.get p = PalRecord.absent := PerPort.get_every _ p

@[simp] theorem powerOn_vote (p : Port) :
    (State.powerOn v k pins n d waiting).power.votes.get p = none := PerPort.get_every _ p

@[simp] theorem powerOn_withdrawalOut (p : Port) :
    (State.powerOn v k pins n d waiting).alloc.withdrawalOut.get p = false := PerPort.get_every _ p

@[simp] theorem powerOn_reportOwed (p : Port) :
    (State.powerOn v k pins n d waiting).alloc.reportOwed.get p = false := PerPort.get_every _ p

@[simp] theorem powerOn_entry (i : Fin 32) :
    (State.powerOn v k pins n d waiting).alloc.table.get i = SurfEntry.powerOn := by
  simp [State.powerOn, Allocator.powerOn, Vector.get_eq_getElem]

/-- Every block of the part at power-on has the value the spec states. -/
theorem powerOnValues_powerOn : PowerOnValues v k (State.powerOn v k pins n d waiting) where
  straps := ⟨rfl, rfl⟩
  links p := by simp [Link.powerOn]
  sessions p := powerOn_session ..
  notices p := powerOn_notices ..
  layout := ⟨rfl, rfl, rfl, rfl⟩
  preset := ⟨rfl, by rintro rfl; rfl, by rintro rfl; rfl, by rintro rfl; rfl, by rintro rfl; rfl⟩
  regions p := ⟨powerOn_region .., powerOn_staging .., powerOn_record ..⟩
  surfaces i := by simp [SurfEntry.powerOn]
  free := rfl
  charges p := ⟨PerPort.get_every _ p, PerPort.get_every _ p, PerPort.get_every _ p⟩
  arbiter := rfl
  store := rfl
  palette i := by simp [State.powerOn, Palette.powerOn, Vector.get_eq_getElem, Colour.black]
  grants p := powerOn_palRecord ..
  engine := rfl
  generator := ⟨rfl, rfl, rfl, rfl⟩
  freshness := rfl
  power := rfl

end

/-- Settles O3: the reset leaves the power-on state, whose flags and pins are computed from it. -/
theorem powerOnPutsEveryBlockAtItsStart : Obligations.PowerOnPutsEveryBlockAtItsStart := by
  unfold Obligations.PowerOnPutsEveryBlockAtItsStart
  refine ⟨fun v k s => ⟨_, rfl, powerOnValues_powerOn .., fun p => ⟨?_, ?_⟩, rfl, rfl, rfl, fun p => ?_⟩,
    powerOnValues_powerOn .., rfl, fun p => ⟨?_, ?_⟩⟩
  · rw [powerOn_link, PerPort.get_map]
    rfl
  · rw [Bool.eq_iff_iff, sdoDriven_iff, powerOn_link, PerPort.get_map, decide_eq_true_iff, and_comm]
    rfl
  · simp [attnHigh, attentionPending, NoticeQueue.cleared]
  · cases p <;> rfl
  · cases p <;> rfl

/-! ### The laws at power-on -/

section
variable (v : Port) (k : Fin 4) (pins : PerPort PortPins) (n d : Nat) (waiting : List Instr)

theorem linkOk_powerOn (q : PortPins) : LinkOk (Link.powerOn q) := by
  constructor <;> simp [Link.powerOn]

theorem linkLaw_powerOn : LinkLaw (State.powerOn v k pins n d waiting) where
  link p := by rw [powerOn_link]; exact linkOk_powerOn _
  waiting a ha := absurd ha List.not_mem_nil
  oneEach := List.nodup_nil
  served p h := absurd h Bool.false_ne_true
  posted p h := by simp [waitsForStore, Link.powerOn] at h

theorem queueLaw_powerOn : QueueLaw (State.powerOn v k pins n d waiting) where
  onePerPort := List.nodup_nil
  entry e he := absurd he List.not_mem_nil
  stopped _ e he := absurd he List.not_mem_nil
  session p := by constructor <;> simp [Session.powerOn, NoticeQueue.cleared, outcomeCount, otherCount]

theorem timingInRange_preset : timingInRange (Config.presetTiming k) = true := by
  revert k
  decide

theorem layoutLaw_powerOn : LayoutLaw (State.powerOn v k pins n d waiting) where
  active :=
    { bands := fun b hb => absurd hb List.not_mem_nil
      apart := List.Pairwise.nil
      keys := List.nodup_nil
      count := rfl
      timing := timingInRange_preset k }
  staged p e he := absurd he (by simp)
  queued e he := absurd he List.not_mem_nil
  records := rfl
  ages r hr := absurd hr List.not_mem_nil
  owners b hb := absurd hb List.not_mem_nil

theorem timingLaw_powerOn : TimingLaw (State.powerOn v k pins n d waiting) where
  agrees := rfl
  active := timingInRange_preset k
  pending _ h := nomatch h
  display h := RunState.noConfusion h
  stopMark _ := rfl
  position h := RunState.noConfusion h
  period h := RunState.noConfusion h

theorem powerLaw_powerOn : PowerLaw (State.powerOn v k pins n d waiting) where
  dark := ⟨fun _ => rfl, fun _ => rfl⟩
  mark := rfl
  marked h := Bool.noConfusion h
  darkQuiet _ := rfl
  leadWanted h := PowerState.noConfusion h
  heldWanted h := PowerState.noConfusion h
  tailUnwanted h := PowerState.noConfusion h
  votes p := by simp [Session.powerOn]
  counts := by simp [State.powerOn, PowerSequencer.powerOn, Config.defaultLead, Config.defaultTail]
  counting h := h.elim PowerState.noConfusion PowerState.noConfusion

theorem paletteLaw_powerOn : PaletteLaw (State.powerOn v k pins n d waiting) where
  apart p q _ := by simp [grantOf, PalRecord.absent, GrantsApart]
  record p := by constructor <;> simp [grantOf, PalRecord.absent]

theorem allocLaw_powerOn : AllocLaw Allocator.powerOn := allocLaw_of_check (by decide +kernel)

theorem surfaceLaw_powerOn : SurfaceLaw (State.powerOn v k pins n d waiting) where
  geometry e he := by
    obtain rfl : e = SurfEntry.powerOn := by simpa [State.powerOn, Allocator.powerOn] using he
    exact fun h => absurd rfl h
  entry i := by constructor <;> simp [SurfEntry.powerOn]
  marks p := by simp [MarksAgree, Session.powerOn]
  shown b hb := absurd hb List.not_mem_nil

theorem engineLaw_powerOn : EngineLaw (State.powerOn v k pins n d waiting) where
  total := Nat.zero_le _
  perPort p := Nat.zero_le _
  tags := List.nodup_nil
  head := trivial
  job j hj := absurd hj List.not_mem_nil
  row := by simp [State.powerOn, CopyEngine.powerOn, Arbiter.powerOn, servesRow]
  awaited e he := absurd he List.not_mem_nil

theorem scanLaw_powerOn : ScanLaw (State.powerOn v k pins n d waiting) := by
  constructor <;> simp [State.powerOn, Arbiter.powerOn, TimingGenerator.powerOn, servedFetch]

end

/-- Settles O53: every block's law holds of its power-on state. -/
theorem lawsHoldAtPowerOn : Obligations.LawsHoldAtPowerOn := by
  unfold Obligations.LawsHoldAtPowerOn
  have hlawful : ∀ (v : Port) (k : Fin 4) (pins : PerPort PortPins) (n d : Nat) (waiting : List Instr),
      Lawful (State.powerOn v k pins n d waiting) := fun v k pins n d waiting =>
    { link := linkLaw_powerOn ..
      queue := queueLaw_powerOn ..
      layout := layoutLaw_powerOn ..
      timing := timingLaw_powerOn ..
      power := powerLaw_powerOn ..
      palette := paletteLaw_powerOn ..
      alloc := allocLaw_powerOn
      surface := surfaceLaw_powerOn ..
      engine := engineLaw_powerOn ..
      scan := scanLaw_powerOn ..
      store := Memory.wf_nil }
  exact ⟨hlawful, hlawful ..⟩

end Sys2Proof.Machine
end


section
/-! PROOFS. The frame store at its arbiter: accesses posted, granted and completed, and the colours of a fetched line (R15 to R17, R64,
R65, R67, R68, R120). -/

namespace Sys2Proof.Machine

/-! ### PIX_WRITE and PIX_READ (R64, R65) -/

theorem ownLiveSurface_of_own {s : State} {p : Port} {h : Handle}
    (hown : (s.alloc.table.get h.index).state = .live ∧ (s.alloc.table.get h.index).gen = h.gen ∧
      (s.alloc.table.get h.index).owner = p) :
    ownLiveSurface s p (some h) = some (h, s.alloc.table.get h.index) :=
  ownLiveSurface_eq_some.2 ⟨rfl, rfl, hown⟩

theorem ownLiveSurface_of_not_own {s : State} {p : Port} {h : Handle}
    (hown : ¬((s.alloc.table.get h.index).state = .live ∧ (s.alloc.table.get h.index).gen = h.gen ∧
      (s.alloc.table.get h.index).owner = p)) : ownLiveSurface s p (some h) = none := by
  refine Option.eq_none_iff_forall_ne_some.2 fun ⟨g, e⟩ hx => hown ?_
  obtain ⟨heq, rfl, hlive⟩ := ownLiveSurface_eq_some.1 hx
  cases heq
  exact hlive

/-- Settles O24: a request that reaches a byte of the port's LIVE surface is posted, and any other is answered at once. -/
theorem pixelAccessIsPosted : Obligations.PixelAccessIsPosted := by
  unfold Obligations.PixelAccessIsPosted
  refine ⟨fun s p => ⟨fun pl hadm hmin hmax hindex => ?_, fun pl hadm hmin hmax hindex => ?_⟩,
    fun s p h offset hoffset => ?_⟩
  · rw [exec_of_admitted (pixWrite p) rfl hadm (lengthOk_iff.2 ⟨hmin, hmax⟩), pixWrite, handleAt_eq_none hindex,
      ← fillReply_eq_replied]
    rfl
  · rw [exec_of_admitted (pixRead p) rfl hadm (lengthOk_iff.2 ⟨hmin, hmax⟩), pixRead, handleAt_eq_none hindex,
      ← fillReply_eq_replied]
    rfl
  intro e own size posted
  refine ⟨fun data hdata hadm => ?write, fun count hcount hadm => ?read⟩
  case write =>
    have hlen : Kind.pixWrite.lengthOk (putHandle h ++ put24 offset ++ data).length = true := by
      simp [lengthOk_iff, Kind.payloadRange]
      omega
    have hhandle : handleAt (putHandle h ++ (put24 offset ++ data)) 0 = some h := handleAt_putHandle_append h _
    have hplace : num24 (putHandle h ++ (put24 offset ++ data)) 2 = offset := num24_put24 hoffset data
    have hrest : (putHandle h ++ (put24 offset ++ data)).drop 5 = data := rfl
    rw [exec_of_admitted (pixWrite p) rfl hadm hlen, List.append_assoc]
    simp only [pixWrite, hhandle, hplace, hrest, fillReply_eq_replied]
    refine ⟨fun hown => ?_, fun hown hnone => ?_, fun hown hsome hin => ?_⟩
    · simp only [ownLiveSurface_of_not_own hown]
    · have hzero : reached e offset data.length = 0 := by
        obtain rfl | hpast := hnone
        · exact Nat.zero_min _
        · exact Nat.min_eq_zero_iff.2 (.inr (Nat.sub_eq_zero_of_le hpast))
      simp only [ownLiveSurface_of_own hown]
      exact congrArg Host.Outcome.next (if_pos hzero)
    · have hpos := List.length_pos_of_ne_nil hsome
      have hreach : reached e offset data.length ≠ 0 := by
        simp only [reached]
        exact Nat.ne_of_gt (Nat.lt_min.2 ⟨hpos, Nat.sub_pos_of_lt hin⟩)
      have htake : data.take (reached e offset data.length) = data.take (size - offset) := by
        rw [reached, Nat.min_comm, ← List.take_eq_take_min]
        rfl
      simp only [ownLiveSurface_of_own hown]
      refine congrArg Host.Outcome.next ((if_neg hreach).trans ?_)
      rw [htake]
      rfl
  case read =>
    have hlen : Kind.pixRead.lengthOk (putHandle h ++ put24 offset ++ put16 count).length = true := rfl
    have hhandle : handleAt (putHandle h ++ (put24 offset ++ put16 count)) 0 = some h := handleAt_putHandle_append h _
    have hplace : num24 (putHandle h ++ (put24 offset ++ put16 count)) 2 = offset := num24_put24 hoffset (put16 count)
    have hnumber : num16 (putHandle h ++ (put24 offset ++ put16 count)) 5 = count := num16_put16 hcount []
    rw [exec_of_admitted (pixRead p) rfl hadm hlen, List.append_assoc]
    simp only [pixRead, hhandle, hplace, hnumber, fillReply_eq_replied]
    refine ⟨fun hown => ?_, fun hown hnone => ?_, fun hown hmin hmax hin => ?_⟩
    · simp only [ownLiveSurface_of_not_own hown]
    · have hzero : 256 < count ∨ reached e offset count = 0 := by
        simp only [reached, Nat.min_eq_zero_iff, Nat.sub_eq_zero_iff_le]
        exact or_left_comm.1 hnone
      simp only [ownLiveSurface_of_own hown]
      exact congrArg Host.Outcome.next (if_pos hzero)
    · have hreach : ¬(256 < count ∨ reached e offset count = 0) := by
        have hsize : ¬e.size ≤ offset := Nat.not_le.2 hin
        simp only [reached, Nat.min_eq_zero_iff, Nat.sub_eq_zero_iff_le]
        omega
      simp only [ownLiveSurface_of_own hown]
      exact congrArg Host.Outcome.next (if_neg hreach)

/-! ### The colours of a fetched line (R16, R17, R120) -/

theorem directColours_spec (bs : List Byte) : (directColours bs).length = bs.length / 2 ∧
    ∀ c, 2 * c + 1 < bs.length →
      (directColours bs).getD c Colour.black =
        directColour ((bs.getD (2 * c) 0#8).toNat + 256 * (bs.getD (2 * c + 1) 0#8).toNat) := by
  induction bs using directColours.induct with
  | case1 lo hi rest ih =>
    refine ⟨?_, fun c hc => ?_⟩
    · simp only [directColours, List.length_cons, ih.1]
      omega
    · cases c with
      | zero => rfl
      | succ c =>
        simp only [List.length_cons] at hc
        exact ih.2 c (by omega)
  | case2 bs hshort =>
    match bs, hshort with
    | [], _ => simp [directColours]
    | [_], _ => simp [directColours]
    | lo :: hi :: rest, h => exact (h lo hi rest rfl).elim

/-- An entry of a concatenation of equally long pieces stands in the piece that its place gives. -/
theorem getD_flatMap_of_length {α β : Type} {f : α → List β} {k : Nat} (hk : 0 < k) (hf : ∀ x, (f x).length = k) (a : α)
    (b : β) : ∀ (xs : List α) (c : Nat), c < k * xs.length →
      (xs.flatMap f).getD c b = (f (xs.getD (c / k) a)).getD (c % k) b
  | [], c, h => absurd h (Nat.not_lt_zero c)
  | x :: xs, c, h => by
    rw [List.flatMap_cons]
    by_cases hc : c < k
    · rw [List.getD_append _ _ _ _ (by rwa [hf]), Nat.div_eq_of_lt hc, Nat.mod_eq_of_lt hc, List.getD_cons_zero]
    · have hle : k ≤ c := Nat.le_of_not_lt hc
      have hdiv : c / k = (c - k) / k + 1 := by
        rw [← Nat.add_div_right _ hk, Nat.sub_add_cancel hle]
      have hlt : c - k < k * xs.length := by
        rw [List.length_cons, Nat.mul_add] at h
        omega
      rw [List.getD_append_right _ _ _ _ (by rwa [hf]), hf, getD_flatMap_of_length hk hf a b xs _ hlt, hdiv,
        List.getD_cons_succ, ← Nat.mod_eq_sub_mod hle]

theorem pixelsPerByte_pos (d : Depth) : 0 < pixelsPerByte d := by cases d <;> decide

theorem pixelSpan_indexed {d : Depth} (h : d ≠ .d16) (n : Nat) : pixelSpan d n = n / pixelsPerByte d := by
  cases d <;> first | rfl | exact absurd rfl h

theorem pixelByte_indexed {d : Depth} (h : d ≠ .d16) (x : Nat) : pixelByte d x = x / pixelsPerByte d := by
  cases d <;> first | rfl | exact absurd rfl h

theorem pixelValue_indexed {d : Depth} (h : d ≠ .d16) (line : Nat → Byte) (x : Nat) :
    pixelValue d line x = pixelField d (line (x / pixelsPerByte d)) (x % pixelsPerByte d) := by
  cases d <;> first | rfl | exact absurd rfl h

theorem fetchedColours_indexed {f : LineFetch} (h : f.depth ≠ .d16) (bytes : List Byte) :
    fetchedColours f bytes = bytes.flatMap (indexedColours f.depth f.palette) := by
  unfold fetchedColours
  cases hd : f.depth <;> first | rfl | exact absurd hd h

theorem fetchedColours_direct {f : LineFetch} (h : f.depth = .d16) (bytes : List Byte) :
    fetchedColours f bytes = directColours bytes := by
  simp [fetchedColours, h]

theorem length_indexedColours (d : Depth) (palette : List Colour) (b : Byte) :
    (indexedColours d palette b).length = pixelsPerByte d := by simp [indexedColours]

theorem pixelsPerByte_dvd_eight (d : Depth) : pixelsPerByte d ∣ 8 := by cases d <;> decide

/-- The direct-colour conversion of R17 on a value of two bytes. -/
theorem directColour_eq {v : Nat} (h : v < 65536) :
    directColour v = ⟨BitVec.ofNat 6 (2 * (v / 2048) + v / 2048 / 16), BitVec.ofNat 6 (v / 32 % 64),
      BitVec.ofNat 6 (2 * (v % 32) + v % 32 / 16)⟩ := by
  have hred : v / 2048 % 32 = v / 2048 := Nat.mod_eq_of_lt (by omega)
  simp only [directColour, widen5, hred]

/-- The number of colours of a line fetch, and each of them from its pixel (R16, R17, R120). -/
theorem fetchedColours_spec {f : LineFetch} {bytes : List Byte} {n : Nat} (hlen : bytes.length = pixelSpan f.depth n)
    (hn : 8 ∣ n) : (fetchedColours f bytes).length = n ∧ ∀ c, c < n →
      (fetchedColours f bytes).getD c Colour.black =
        if f.depth = .d16 then directColour (pixelValue f.depth (fun i => bytes.getD i 0#8) c)
        else f.palette.getD (pixelValue f.depth (fun i => bytes.getD i 0#8) c) Colour.black := by
  by_cases hd : f.depth = .d16
  · obtain ⟨hcount, hcolour⟩ := directColours_spec bytes
    rw [fetchedColours_direct hd]
    simp only [hd, pixelSpan] at hlen
    refine ⟨by omega, fun c hc => ?_⟩
    rw [hcolour c (by omega), if_pos hd, hd]
    rfl
  · have hspan : pixelsPerByte f.depth * bytes.length = n := by
      rw [hlen, pixelSpan_indexed hd]
      exact Nat.mul_div_cancel' ((pixelsPerByte_dvd_eight _).trans hn)
    rw [fetchedColours_indexed hd]
    refine ⟨?_, fun c hc => ?_⟩
    · simp only [List.length_flatMap, length_indexedColours, List.map_const', List.sum_replicate, smul_eq_mul]
      rw [Nat.mul_comm, hspan]
    · have hmod : c % pixelsPerByte f.depth < pixelsPerByte f.depth := Nat.mod_lt _ (pixelsPerByte_pos _)
      rw [getD_flatMap_of_length (pixelsPerByte_pos f.depth) (length_indexedColours _ _) 0#8 _ _ _ (by rwa [hspan]),
        if_neg hd, pixelValue_indexed hd]
      simp [indexedColours, List.getD_eq_getElem?_getD, hmod]

/-- A pixel value of direct colour fits in its two bytes (R17). -/
theorem pixelValue_d16_lt (line : Nat → Byte) (x : Nat) : pixelValue .d16 line x < 65536 := by
  have hlo := (line (2 * x)).isLt
  have hhi := (line (2 * x + 1)).isLt
  simp only [pixelValue]
  omega

/-- Settles O44: each completion frees the store, and hands on what its access read. -/
theorem accessesComplete : Obligations.AccessesComplete := by
  unfold Obligations.AccessesComplete
  refine fun s => ⟨fun p st payload hbusy => ?_, fun p st payload hbusy => ?_, fun f bytes n hbusy hlen hn => ?_⟩
  · simp only [exec, execPortAccessCompletion, hbusy, fillReply_eq_replied]
    rfl
  · simp only [exec, execPortAccessCompletion, hbusy]
    rfl
  · obtain ⟨hcount, hcolour⟩ := fetchedColours_spec hlen hn
    refine ⟨fetchedColours f bytes, ?_, hcount, fun c hc => ?_⟩
    · simp only [exec, execLineFetchCompletion, hbusy]
      rfl
    · rw [hcolour c hc]
      by_cases hd : f.depth = .d16
      · simp only [if_pos hd]
        rw [hd, directColour_eq (pixelValue_d16_lt _ _)]
      · simp only [if_neg hd]

end Sys2Proof.Machine
end


section
/-! PROOFS. Lines and outputs: the sourcing of a display line (R14, R15), the parts of a line (R109, R110) and the pins (R119, R138,
R147, R183). -/

namespace Sys2Proof.Machine

/-! ### Sourcing a display line (R14, R15) -/

theorem find?_of_onlyCover {s : State} {n : Nat} {b : Band} (h : OnlyCover s n b) :
    s.layout.active.bands.find? (fun b => b.covers n) = some b := by
  obtain ⟨hmem, hcovers, honly⟩ := h
  cases hfind : s.layout.active.bands.find? fun b => b.covers n with
  | none => exact absurd hcovers (List.find?_eq_none.1 hfind b hmem)
  | some b' => rw [honly b' (List.mem_of_find?_eq_some hfind) (List.find?_some (p := fun b : Band => b.covers n) hfind)]

theorem sourceLine_background {s : State} {n : Nat} (h : ∀ b ∈ s.layout.active.bands, b.covers n = false) :
    sourceLine n s = plainLine s.layout.active.background s := by
  have hfind : s.layout.active.bands.find? (fun b => b.covers n) = none :=
    List.find?_eq_none.2 fun b hb => by rw [h b hb]; exact Bool.false_ne_true
  simp only [sourceLine, hfind]

theorem sourceLine_marked {s : State} {n : Nat} {b : Band} (h : OnlyCover s n b) (hstale : b.key ∈ s.fresh.staleSet) :
    sourceLine n s = plainLine s.layout.active.staleColour s := by
  simp only [sourceLine, find?_of_onlyCover h, if_pos hstale]

theorem sourceLine_fill {s : State} {n : Nat} {b : Band} {c : Colour} (h : OnlyCover s n b)
    (hfresh : b.key ∉ s.fresh.staleSet) (hpart : b.part = .fill c) : sourceLine n s = plainLine c s := by
  simp only [sourceLine, find?_of_onlyCover h, if_neg hfresh, hpart]

theorem sourceLine_surface {s : State} {n : Nat} {b : Band} {h : Handle} {x y : Nat} (hc : OnlyCover s n b)
    (hfresh : b.key ∉ s.fresh.staleSet) (hpart : b.part = .surface h x y) :
    sourceLine n s = { s with scan := .awaiting, arb := { s.arb with lineFetch := some (lineFetchOf s b h x y n) } } := by
  simp only [sourceLine, find?_of_onlyCover hc, if_neg hfresh, hpart]

/-- Scan-out is left with a line of one colour, or with the one line fetch it posts. -/
theorem sourceLine_cases (n : Nat) (s : State) :
    (∃ c, sourceLine n s = plainLine c s) ∨
      ∃ b ∈ s.layout.active.bands, b.covers n = true ∧ ∃ h x y, b.part = .surface h x y ∧
        sourceLine n s =
          { s with scan := .awaiting, arb := { s.arb with lineFetch := some (lineFetchOf s b h x y n) } } := by
  unfold sourceLine
  cases hfind : s.layout.active.bands.find? fun b => b.covers n with
  | none => exact .inl ⟨_, rfl⟩
  | some b =>
    by_cases hstale : b.key ∈ s.fresh.staleSet
    · simp only [if_pos hstale]
      exact .inl ⟨_, rfl⟩
    · simp only [if_neg hstale]
      cases hpart : b.part with
      | fill c => exact .inl ⟨_, rfl⟩
      | surface h x y =>
        exact .inr ⟨b, List.mem_of_find?_eq_some hfind, List.find?_some (p := fun b : Band => b.covers n) hfind, h, x, y, hpart, rfl⟩

/-- The scan-out and the arbiter of `t` are those that the sourcing of line n left, from the layout and tables of `s`. -/
theorem sourcedAs_of_sourceLine {s s1 t : State} {stale : List BandKey} {n : Nat} (hlayout : s1.layout = s.layout)
    (halloc : s1.alloc = s.alloc) (hpal : s1.pal = s.pal) (harb : s1.arb = s.arb) (hstale : s1.fresh.staleSet = stale)
    (hscan : t.scan = (sourceLine n s1).scan) (htarb : t.arb = (sourceLine n s1).arb) : SourcedAs s stale n t := by
  have honly : ∀ {b}, OnlyCover s n b → OnlyCover s1 n b := fun h => by
    rw [OnlyCover, hlayout]
    exact h
  refine ⟨fun hnone => ?_, fun b hb hmark => ?_, fun b c hb hmark hpart => ?_, fun b h x y hb hmark hpart => ?_, ?_, ?_⟩
  · rw [hscan, sourceLine_background (by rwa [hlayout])]
    simp only [plainLine, hlayout]
  · rw [hscan, sourceLine_marked (honly hb) (by rwa [hstale])]
    simp only [plainLine, hlayout]
  · rw [hscan, sourceLine_fill (honly hb) (by rwa [hstale]) hpart]
    simp only [plainLine, hlayout]
  · rw [hscan, htarb, sourceLine_surface (honly hb) (by rwa [hstale]) hpart]
    refine ⟨rfl, congrArg some ?_⟩
    simp only [lineFetchOf, paletteSlice, grantOf, hlayout, halloc, hpal]
    rfl
  · intro hnot
    rw [hscan] at hnot
    obtain ⟨c, heq⟩ | ⟨b, -, -, h, x, y, -, heq⟩ := sourceLine_cases n s1
    · rw [htarb, heq, ← harb]
      rfl
    · rw [heq] at hnot
      exact absurd rfl hnot
  · obtain ⟨c, heq⟩ | ⟨b, -, -, h, x, y, -, heq⟩ := sourceLine_cases n s1
    · rw [htarb, heq, ← harb]
      rfl
    · rw [htarb, heq, ← harb]

/-! ### The parts of a line (R109, R110) -/

theorem inDisplayPart_iff {s : State} : inDisplayPart s = true ↔ s.timing.run = .running ∧ s.timing.part = .display := by
  simp [inDisplayPart]

theorem atPlainLine_iff {s : State} :
    atPlainLine s = true ↔ (s.timing.run = .running ∧ s.timing.part = .display) ∧
      s.timing.line + 1 ≠ s.timing.active.vdl ∧ s.timing.line + 1 < s.timing.active.vdl + s.timing.active.vnd := by
  simp only [atPlainLine, Bool.and_eq_true, inDisplayPart_iff, decide_eq_true_iff, and_assoc]

theorem atVblank_iff {s : State} :
    atVblank s = true ↔ (s.timing.run = .running ∧ s.timing.part = .display) ∧
      s.timing.line + 1 = s.timing.active.vdl := by
  simp only [atVblank, Bool.and_eq_true, inDisplayPart_iff, decide_eq_true_iff]

theorem atFrameEnd_iff {s : State} :
    atFrameEnd s = true ↔ (s.timing.run = .running ∧ s.timing.part = .display) ∧
      s.timing.line + 1 = s.timing.active.vdl + s.timing.active.vnd := by
  simp only [atFrameEnd, Bool.and_eq_true, inDisplayPart_iff, decide_eq_true_iff]

/-- LINE_START at a boundary of its own. -/
theorem exec_lineStart_of_due {s : State} (h : atPlainLine s = true) :
    exec .lineStart s =
      let s1 := { s with timing := { s.timing with line := s.timing.line + 1, part := .sync } }
      if s.timing.line + 1 < s.timing.active.vdl then .next (sourceLine (s.timing.line + 1) s1)
      else .next { s1 with scan := .none } := if_pos h

/-- Settles O46: each row acts at its own boundary. -/
theorem linesAreProducedInOrder : Obligations.LinesAreProducedInOrder := by
  unfold Obligations.LinesAreProducedInOrder
  intro s hrun
  refine ⟨fun hpart hline => ?_, fun hpart hpast hline => ?_, fun hpart => if_pos ⟨hrun, hpart⟩,
    fun hpart hscan => if_pos ⟨hrun, hpart, hscan⟩⟩
  · rw [exec_lineStart_of_due (atPlainLine_iff.2 ⟨⟨hrun, hpart⟩, by omega, by omega⟩), if_pos hline]
    refine ⟨_, rfl, (sourceLine_frame _ _).trans ?_, ?_⟩
    · rw [sourceLine_frame]
    · exact sourcedAs_of_sourceLine (s1 := { s with timing := { s.timing with line := s.timing.line + 1, part := .sync } })
        rfl rfl rfl rfl rfl rfl rfl
  · rw [exec_lineStart_of_due (atPlainLine_iff.2 ⟨⟨hrun, hpart⟩, by omega, hline⟩), if_neg (by omega)]

/-! ### Outputs (R119, R138, R147, R183) -/

theorem panelOutputs_stopped {s : State} (h : s.timing.run = .stopped) :
    panelOutputs s = ⟨false, false, false, false, []⟩ := by simp only [panelOutputs, h]

theorem panelOutputs_running {s : State} (h : s.timing.run = .running) :
    panelOutputs s =
      { pclk := true
        hsync := decide (s.timing.part = .sync)
        vsync := decide (s.timing.period = .nonDisplay)
        den := decide (s.timing.part = .display ∧ s.timing.period = .display)
        colours := if s.timing.part = .display ∧ s.timing.period = .display then drivenColours s.scan else [] } := by
  simp only [panelOutputs, h]
  congr 1
  exact (Bool.decide_and (s.timing.part = .display) (s.timing.period = .display)).symm

theorem logicEn_eq_decide (s : State) : logicEn s = decide (s.power.state ≠ .dark) := by
  rw [Bool.eq_iff_iff]
  simp [logicEn]

theorem powerEn_eq_decide (s : State) : powerEn s = decide (s.power.state = .lit) := rfl

/-- Under the laws scan-out holds the colours of the line in the display part of a display line. -/
theorem ScanLaw.exists_fixed {s : State} (h : ScanLaw s) (hrun : s.timing.run = .running)
    (hpart : s.timing.part = .display) (hperiod : s.timing.period = .display) :
    ∃ cs, s.scan = .fixed cs ∧ cs.length = s.timing.active.hdw := by
  cases hscan : s.scan with
  | none => exact absurd hscan (h.sourced hrun hperiod)
  | awaiting =>
    obtain ⟨-, -, hnot⟩ := h.notDriven hscan
    exact absurd hpart hnot
  | fixed cs =>
    obtain ⟨-, -, hlen⟩ := h.fixed cs hscan
    exact ⟨cs, rfl, hlen⟩

/-- Settles O47: the tables of R119, R138, R147 and R183, and what the laws add. -/
theorem outputsFollowTheTables : Obligations.OutputsFollowTheTables := by
  unfold Obligations.OutputsFollowTheTables
  intro s
  refine ⟨panelOutputs_stopped, fun hrun => ?running, logicEn_eq_decide s, powerEn_eq_decide s, fun p => ?attn,
    fun p => ?sdo, fun pins => ?low, fun hs => ⟨?supplied, fun hpower => ?_, fun hrun hpart hperiod => ?_⟩⟩
  case running =>
    rw [panelOutputs_running hrun]
    refine ⟨rfl, rfl, rfl, rfl, fun hnot => if_neg hnot, fun cs hpart hperiod hscan => ?_⟩
    rw [if_pos ⟨hpart, hperiod⟩, hscan]
    rfl
  case attn =>
    rw [attnHigh, attentionPending_eq_decide, ← decide_not]
    exact decide_eq_decide.2 not_not
  case sdo => rw [Bool.eq_iff_iff, sdoDriven_iff, decide_eq_true_iff, and_comm]
  case low => simp [sdoPin]
  case supplied =>
    rw [logicEn_eq_decide]
    refine decide_eq_decide.2 ?_
    rw [ne_eq, hs.power.dark]
    cases s.timing.run <;> decide
  · have hlit : s.power.state = .lit := of_decide_eq_true ((powerEn_eq_decide s) ▸ hpower)
    refine ⟨?_, ?_⟩
    · rw [logicEn_eq_decide, hlit]
      rfl
    · rw [← hs.power.mark, Bool.eq_false_iff]
      intro hmark
      obtain h | h := hs.power.marked hmark <;> rw [hlit] at h <;> cases h
  · obtain ⟨cs, hscan, hlen⟩ := hs.scan.exists_fixed hrun hpart hperiod
    rw [panelOutputs_running hrun, if_pos ⟨hpart, hperiod⟩, hscan, ← hlen]
    rfl

end Sys2Proof.Machine
end


section
/-! PROOFS. Rows in the frame store: where a row lies, what it writes, and what the arbiter grants (R16, R17, R48, R51, R68, R92, R95,
R96). -/

namespace Sys2Proof.Machine

/-! ### A row lies in the frame store (R48, R51) -/

theorem get_mem_toList {α : Type} {n : Nat} (v : Vector α n) (i : Fin n) : v.get i ∈ v.toList := by
  rw [Vector.mem_toList_iff, Vector.get_eq_getElem]
  exact Vector.getElem_mem i.isLt

/-- The bytes that pixels x to x + n − 1 span lie in the line (R51). -/
theorem rowSpan_le_stride {d : Depth} {width x n : Nat} (hx : x + n ≤ width) (hn : 1 ≤ n) :
    pixelByte d x + rowSpan d x n ≤ strideOf width d := by
  cases d <;> simp only [pixelByte, rowSpan, strideOf, pixelsPerByte, Depth.bits] <;> omega

theorem length_rowBytes (d : Depth) (line : Nat → Byte) (dx w : Nat) (value : Nat → Nat) :
    (rowBytes d line dx w value).length = rowSpan d dx w := by simp [rowBytes]

/-- A run of one line of a surface lies in the frame store (R48, R52). -/
theorem lineRun_inStore {s : State} {e : SurfEntry} {y place n : Nat} (ha : AllocLaw s.alloc) (hg : GeometryOk e)
    (he : e ∈ s.alloc.table.toList) (hused : e.state ≠ .free) (hy : y < e.height) (hrun : place + n ≤ e.stride) :
    runInStore (e.addr (y * e.stride + place)) n = true := by
  obtain ⟨-, -, -, -, -, hcount⟩ := hg hused
  obtain ⟨-, hlast⟩ := ha.runs e he hused
  have hline : (y + 1) * e.stride ≤ e.height * e.stride := Nat.mul_le_mul_right _ hy
  have hsize : e.stride * e.height ≤ 2048 * e.blockCount := by
    rw [hcount, blocksOf, Config.blockBytes]
    omega
  rw [Nat.mul_comm e.stride] at hsize
  rw [Nat.add_mul, Nat.one_mul] at hline
  simp only [runInStore_iff, SurfEntry.addr, Config.blockBytes, Config.storeBytes]
  simp only [Config.blocks] at hlast
  omega

/-- The pixels of a line of a surface, by the geometry R51 gives it. -/
theorem lineRow_inStore {s : State} {e : SurfEntry} {y x n : Nat} (ha : AllocLaw s.alloc) (hg : GeometryOk e)
    (he : e ∈ s.alloc.table.toList) (hused : e.state ≠ .free) (hy : y < e.height) (hx : x + n ≤ e.width) (hn : 1 ≤ n) :
    runInStore (e.addr (y * e.stride + pixelByte e.depth x)) (rowSpan e.depth x n) = true := by
  obtain ⟨-, -, -, -, hstride, -⟩ := hg hused
  refine lineRun_inStore ha hg he hused hy ?_
  rw [hstride]
  exact rowSpan_le_stride hx hn

theorem destLine_lt {j : Job} (h : j.rowsDone < j.h) : j.destLine < j.dy + j.h := by
  unfold Job.destLine
  cases j.direction <;> dsimp only <;> omega

theorem sourceLine_lt {j : Job} (h : j.rowsDone < j.h) (sy : Nat) : j.sourceLine sy < sy + j.h := by
  unfold Job.sourceLine
  cases j.direction <;> dsimp only <;> omega

/-- A surface that a job names holds the job's rectangle. -/
theorem JobSurface.rect {s : State} {j : Job} {h : Handle} {x y : Nat} (hj : JobSurface s j h x y) :
    (s.alloc.table.get h.index).state ≠ .free ∧ x + j.w ≤ (s.alloc.table.get h.index).width ∧
      y + j.h ≤ (s.alloc.table.get h.index).height := by
  obtain ⟨e, hnamed, -, -, hx, hy⟩ := hj
  obtain ⟨rfl, hused, -⟩ := namedSurface_eq_some.1 hnamed
  exact ⟨hused, hx, hy⟩

/-- Under the laws the next row of a job lies in the frame store, with the source it reads (R48). -/
theorem row_inStore {s : State} (hs : Lawful s) {j : Job} (hj : j ∈ s.engine.jobs) :
    runInStore (rowWrite s j).1 (rowWrite s j).2.length = true ∧ rowSourceInStore s j = true := by
  have hok := hs.engine.job j hj
  obtain ⟨hrows, hw⟩ := hok.rows
  have hin : ∀ {h x y line}, JobSurface s j h x y → line < y + j.h →
      runInStore ((s.alloc.table.get h.index).addr
          (line * (s.alloc.table.get h.index).stride + pixelByte (s.alloc.table.get h.index).depth x))
        (rowSpan (s.alloc.table.get h.index).depth x j.w) = true := fun hsurf hline => by
    obtain ⟨hused, hx, hy⟩ := hsurf.rect
    exact lineRow_inStore hs.alloc (hs.surface.geometry _ (get_mem_toList _ _)) (get_mem_toList _ _) hused
      (Nat.lt_of_lt_of_le hline hy) hx hw
  refine ⟨?_, ?_⟩
  · simp only [rowWrite, length_rowBytes]
    exact hin hok.dest (destLine_lt hrows)
  · have hkind := hok.kind
    unfold JobKindOk at hkind
    unfold rowSourceInStore
    cases hk : j.kind with
    | fill v => rfl
    | copy src sx sy =>
      simp only [hk] at hkind
      exact hin hkind.1 (sourceLine_lt hrows sy)

/-- The oldest job of a lawful engine runs (R88, R93). -/
theorem EngineLaw.runningJob_eq {s : State} (h : EngineLaw s) {j : Job} {rest : List Job} (hjobs : s.engine.jobs = j :: rest) :
    runningJob s.engine.jobs = some j := by
  have hhead := h.head
  rw [hjobs] at hhead ⊢
  exact runningJob_head hhead.1

/-! ### The arbiter (R68) -/

theorem exec_grant_busy {s : State} {x : Service} (h : s.arb.busy = some x) : exec .frameStoreGrant s = .next s := by
  simp only [exec, execFrameStoreGrant, h]

theorem exec_grant_lineFetch {s : State} {f : LineFetch} (hbusy : s.arb.busy = none) (hfetch : s.arb.lineFetch = some f) :
    exec .frameStoreGrant s = grantLineFetch f s := by
  simp only [exec, execFrameStoreGrant, hbusy, hfetch]

theorem exec_grant_none {s : State} (hbusy : s.arb.busy = none) (hfetch : s.arb.lineFetch = none)
    (hrow : waitingRow s = none) (hports : s.arb.ports = []) : exec .frameStoreGrant s = .next s := by
  simp only [exec, execFrameStoreGrant, hbusy, hfetch, hrow, hports]

theorem exec_grant_port {s : State} {a : PortAccess} {rest : List PortAccess} (hbusy : s.arb.busy = none)
    (hfetch : s.arb.lineFetch = none) (hports : s.arb.ports = a :: rest)
    (hturn : waitingRow s = none ∨ s.arb.turn = .ports) : exec .frameStoreGrant s = grantPort a rest s := by
  simp only [exec, execFrameStoreGrant, hbusy, hfetch, hports]
  cases hrow : waitingRow s with
  | none => rfl
  | some j => simp only [hturn.resolve_left (by simp [hrow])]

theorem exec_grant_row {s : State} {j : Job} (hbusy : s.arb.busy = none) (hfetch : s.arb.lineFetch = none)
    (hrow : waitingRow s = some j) (hturn : s.arb.ports = [] ∨ s.arb.turn = .engine) :
    exec .frameStoreGrant s = grantRow j s := by
  simp only [exec, execFrameStoreGrant, hbusy, hfetch, hrow]
  cases hports : s.arb.ports with
  | nil => rfl
  | cons a rest => simp only [hturn.resolve_left (by simp [hports])]

theorem waitingRow_of_not_posted {s : State} (h : s.arb.engineRow = false) : waitingRow s = none := by
  simp [waitingRow, h]

theorem waitingRow_of_posted {s : State} (h : s.arb.engineRow = true) : waitingRow s = runningJob s.engine.jobs := by
  simp [waitingRow, h]

/-- Under the laws the row of the running job is granted when the turn is the engine's. -/
theorem exec_grant_row_lawful {s : State} {j : Job} {rest : List Job} (hs : Lawful s) (hbusy : s.arb.busy = none)
    (hfetch : s.arb.lineFetch = none) (hrow : s.arb.engineRow = true) (hjobs : s.engine.jobs = j :: rest)
    (hturn : s.arb.ports = [] ∨ s.arb.turn = .engine) :
    exec .frameStoreGrant s =
      .next
        { s with
          store := Memory.storeRun s.store (rowWrite s j).1 (rowWrite s j).2
          arb := { s.arb with turn := .ports, engineRow := false, busy := some (.engineRow false) } } := by
  have hwaits : waitingRow s = some j := (waitingRow_of_posted hrow).trans (hs.engine.runningJob_eq hjobs)
  rw [exec_grant_row hbusy hfetch hwaits hturn]
  exact if_pos (row_inStore hs (by rw [hjobs]; exact List.mem_cons_self))

theorem grantPort_of_inStore {s : State} {a : PortAccess} {rest : List PortAccess} (h : a.addr + a.span ≤ Config.storeBytes) :
    grantPort a rest s =
      .next
        { s with
          store := accessStore s a
          arb :=
            { s.arb with
              turn := .engine, ports := rest, busy := some (.portAccess a.port a.status (accessPayload s a) true) } } :=
  if_pos (runInStore_iff.2 h)

/-- Settles O42: the arbiter's choice, and the bytes as they stand at the grant. -/
theorem arbiterGrants : Obligations.ArbiterGrants := by
  unfold Obligations.ArbiterGrants
  refine fun s => ⟨fun hbusy => ?_, fun hbusy => ⟨fun f hfetch hin => ?lineFetch, fun hfetch =>
    ⟨fun hrow hports => ?_, fun a rest hports hturn => ⟨fun data hop hin => ?write, fun n hop hin => ?read⟩,
      fun hrow hjobs hturn hs => ?row⟩⟩⟩
  · obtain ⟨x, hx⟩ := Option.ne_none_iff_exists'.1 hbusy
    exact exec_grant_busy hx
  case lineFetch =>
    refine ⟨s.bytesAt f.addr f.len, ?_, State.length_bytesAt .., fun i hi => State.getD_bytesAt _ _ _ _ hi⟩
    rw [exec_grant_lineFetch hbusy hfetch]
    exact if_pos (runInStore_iff.2 hin)
  · exact exec_grant_none hbusy hfetch (waitingRow_of_not_posted hrow) hports
  case write =>
    have hspan : a.addr + a.span ≤ Config.storeBytes := by rwa [PortAccess.span, hop]
    refine ⟨Memory.storeRun s.store a.addr data, ?_, fun x => ?_⟩
    · rw [exec_grant_port hbusy hfetch hports (hturn.imp_left waitingRow_of_not_posted), grantPort_of_inStore hspan]
      simp only [accessStore, accessPayload, hop]
    · exact State.byteAt_storeRun (s := s) (t := { s with store := Memory.storeRun s.store a.addr data, arb := _ }) rfl rfl x
  case read =>
    have hspan : a.addr + a.span ≤ Config.storeBytes := by rwa [PortAccess.span, hop]
    refine ⟨s.bytesAt a.addr n, ?_, State.length_bytesAt .., fun i hi => State.getD_bytesAt _ _ _ _ hi⟩
    rw [exec_grant_port hbusy hfetch hports (hturn.imp_left waitingRow_of_not_posted), grantPort_of_inStore hspan]
    simp only [accessStore, accessPayload, hop]
  case row =>
    obtain ⟨j, rest, hcons⟩ := List.exists_cons_of_ne_nil hjobs
    exact ⟨_, exec_grant_row_lawful hs hbusy hfetch hrow hcons hturn⟩

/-! ### No step stops (R48; log 23) -/

/-- A grant goes on when every access that waits lies in the frame store. -/
theorem grant_goesOn {s : State} (hfetch : ∀ f, s.arb.lineFetch = some f → f.addr + f.len ≤ Config.storeBytes)
    (hports : ∀ a ∈ s.arb.ports, a.addr + a.span ≤ Config.storeBytes)
    (hrow : ∀ j ∈ s.engine.jobs,
      runInStore (rowWrite s j).1 (rowWrite s j).2.length = true ∧ rowSourceInStore s j = true) :
    GoesOn (exec .frameStoreGrant s) := by
  have hgrantRow : ∀ {j}, waitingRow s = some j → GoesOn (grantRow j s) := fun {j} hj => by
    have hmem : j ∈ s.engine.jobs := by
      unfold waitingRow at hj
      split at hj
      · exact List.mem_of_find?_eq_some hj
      · cases hj
    exact ⟨_, if_pos (hrow j hmem)⟩
  cases hbusy : s.arb.busy with
  | some x => exact ⟨s, exec_grant_busy hbusy⟩
  | none =>
    cases hf : s.arb.lineFetch with
    | some f => exact ⟨_, (exec_grant_lineFetch hbusy hf).trans (if_pos (runInStore_iff.2 (hfetch f hf)))⟩
    | none =>
      cases hp : s.arb.ports with
      | nil =>
        cases hw : waitingRow s with
        | none => exact ⟨s, exec_grant_none hbusy hf hw hp⟩
        | some j => exact exec_grant_row hbusy hf hw (.inl hp) ▸ hgrantRow hw
      | cons a rest =>
        have hgrantPort : GoesOn (grantPort a rest s) := ⟨_, grantPort_of_inStore (hports a (by simp [hp]))⟩
        cases hw : waitingRow s with
        | none => exact exec_grant_port hbusy hf hp (.inl hw) ▸ hgrantPort
        | some j =>
          cases ht : s.arb.turn with
          | ports => exact exec_grant_port hbusy hf hp (.inr ht) ▸ hgrantPort
          | engine => exact exec_grant_row hbusy hf hw (.inr ht) ▸ hgrantRow hw

theorem GoesOn.next (s : State) : GoesOn (.next s) := ⟨s, rfl⟩

theorem GoesOn.ite {c : Prop} [Decidable c] {a b : Host.Outcome State Fault Refusal} (ha : GoesOn a) (hb : GoesOn b) :
    GoesOn (if c then a else b) := by
  split <;> assumption

/-- The other commands go on in every state. -/
theorem exec_goesOn {c : Instr} (h : c ≠ .frameStoreGrant) (s : State) : GoesOn (exec c s) := by
  cases c
  case frameStoreGrant => exact absurd rfl h
  case lineStart => exact .ite (.ite (.next _) (.next _)) (.next _)
  case rstnFall | frameStart | bandMarkedStale | vblankStart | leadCountReached | tailCountReached | timingStopped
    | backPorchStart | displayPartStart | portReset | fetchWindowOpen => exact .ite (.next _) (.next _)
  case requestWindowClose p held bits =>
    simp only [exec, execRequestWindowClose]
    split
    · split <;> exact .next _
    · exact .next _
  case fetchWindowClose p edges =>
    simp only [exec, execFetchWindowClose]
    split <;> exact .next _
  case portAccessCompletion =>
    simp only [exec, execPortAccessCompletion]
    split
    · exact .ite (.next _) (.next _)
    all_goals exact .next _
  case rowCompletion =>
    simp only [exec, execRowCompletion]
    split
    · refine .ite (.next _) ?_
      split <;> exact .next _
    all_goals exact .next _
  case lineFetchCompletion =>
    simp only [exec, execLineFetchCompletion]
    split <;> exact .next _
  all_goals exact .next _

/-- Settles O60: the laws keep every access in the frame store. -/
theorem noStepStops : Obligations.NoStepStops := by
  unfold Obligations.NoStepStops
  intro s hs
  unfold step
  split
  · exact .next _
  · rename_i c rest _
    by_cases hc : c = .frameStoreGrant
    · subst hc
      exact grant_goesOn (fun f hf => (hs.scan.fetch f hf).1) hs.scan.access fun j hj => row_inStore hs hj
    · exact exec_goesOn hc _

end Sys2Proof.Machine
end


section
/-! PROOFS. The pixels of a granted row (R16, R17, R92, R95, R96). -/

namespace Sys2Proof.Machine

/-! ### Packed bytes (R16) -/

/-- Digits of a number written to a base, the most significant first: each is read back. -/
theorem foldl_digits (b : Nat) (hb : 0 < b) (l : List Nat) :
    l.foldl (fun acc v => acc * b + v % b) 0 < b ^ l.length ∧
      ∀ q, q < l.length → l.foldl (fun acc v => acc * b + v % b) 0 / b ^ (l.length - 1 - q) % b = l.getD q 0 % b := by
  induction l using List.reverseRecOn with
  | nil => exact ⟨Nat.one_pos, fun q hq => absurd hq (Nat.not_lt_zero q)⟩
  | append_singleton l x ih =>
    obtain ⟨hlt, hdigit⟩ := ih
    have hx : x % b < b := Nat.mod_lt _ hb
    rw [List.foldl_append, List.foldl_cons, List.foldl_nil, List.length_append, List.length_singleton]
    refine ⟨?_, fun q hq => ?_⟩
    · calc l.foldl (fun acc v => acc * b + v % b) 0 * b + x % b
          < (l.foldl (fun acc v => acc * b + v % b) 0 + 1) * b := by rw [Nat.add_mul, Nat.one_mul]; omega
        _ ≤ b ^ l.length * b := Nat.mul_le_mul_right b hlt
        _ = b ^ (l.length + 1) := (Nat.pow_succ ..).symm
    · by_cases hlast : q = l.length
      · subst hlast
        rw [Nat.add_sub_cancel, Nat.sub_self, Nat.pow_zero, Nat.div_one, Nat.mul_add_mod', Nat.mod_mod,
          List.getD_append_right _ _ _ _ (Nat.le_refl _), Nat.sub_self, List.getD_cons_zero]
      · have hq' : q < l.length := by omega
        have hexp : l.length + 1 - 1 - q = (l.length - 1 - q) + 1 := by omega
        rw [hexp, Nat.pow_succ, Nat.mul_comm (b ^ _) b, ← Nat.div_div_eq_div_mul, Nat.mul_comm _ b,
          Nat.mul_add_div hb, Nat.div_eq_of_lt hx, Nat.add_zero, hdigit q hq', List.getD_append _ _ _ _ hq']

theorem bits_mul_pixelsPerByte {d : Depth} (h : d ≠ .d16) : d.bits * pixelsPerByte d = 8 := by
  cases d <;> first | rfl | exact absurd rfl h

/-- A pixel field of a packed byte is the one packed there. -/
theorem pixelField_packByte {d : Depth} (h : d ≠ .d16) {fields : List Nat} (hlen : fields.length = pixelsPerByte d) {q : Nat}
    (hq : q < pixelsPerByte d) : pixelField d (packByte d fields) q = fields.getD q 0 % 2 ^ d.bits := by
  have hbits := bits_mul_pixelsPerByte h
  obtain ⟨hlt, hdigit⟩ := foldl_digits (2 ^ d.bits) (Nat.two_pow_pos _) fields
  rw [hlen, ← Nat.pow_mul, hbits] at hlt
  have hexp : 8 - d.bits * (q + 1) = d.bits * (pixelsPerByte d - 1 - q) := by
    rw [Nat.sub_sub, Nat.add_comm 1 q, Nat.mul_sub, hbits]
  rw [pixelField, packByte, BitVec.toNat_ofNat, Nat.mod_eq_of_lt hlt, hexp, Nat.pow_mul, ← hlen]
  exact hdigit q (by rwa [hlen])

theorem pixelField_lt (d : Depth) (b : Byte) (q : Nat) : pixelField d b q < 2 ^ d.bits := Nat.mod_lt _ (Nat.two_pow_pos _)

theorem pixelValue_lt (d : Depth) (line : Nat → Byte) (x : Nat) : pixelValue d line x < 2 ^ d.bits := by
  by_cases h : d = .d16
  · subst h
    exact pixelValue_d16_lt line x
  · rw [pixelValue_indexed h]
    exact pixelField_lt ..

/-- A byte of an indexed depth that a row writes: the fields of the rectangle take their values, the others stay (R95, R96). -/
theorem pixelField_writtenByte {d : Depth} (h : d ≠ .d16) {line : Nat → Byte} {dx w : Nat} {value : Nat → Nat}
    (hvalue : ∀ i, i < w → value i < 2 ^ d.bits) (j : Nat) {q : Nat} (hq : q < pixelsPerByte d) :
    pixelField d (writtenByte d line dx w value j) q =
      if dx ≤ j * pixelsPerByte d + q ∧ j * pixelsPerByte d + q < dx + w then value (j * pixelsPerByte d + q - dx)
      else pixelField d (line j) q := by
  have hwritten : writtenByte d line dx w value j =
      packByte d ((List.range (pixelsPerByte d)).map fun q =>
        if dx ≤ j * pixelsPerByte d + q ∧ j * pixelsPerByte d + q < dx + w then value (j * pixelsPerByte d + q - dx)
        else pixelField d (line j) q) := by
    cases d <;> first | rfl | exact absurd rfl h
  have hpacked := pixelField_packByte h (q := q) (fields := (List.range (pixelsPerByte d)).map fun q =>
    if dx ≤ j * pixelsPerByte d + q ∧ j * pixelsPerByte d + q < dx + w then value (j * pixelsPerByte d + q - dx)
    else pixelField d (line j) q) (by simp) hq
  rw [hwritten, hpacked]
  simp only [List.getD_eq_getElem?_getD, List.getElem?_map, List.getElem?_range hq, Option.map_some, Option.getD_some]
  refine Nat.mod_eq_of_lt ?_
  split
  · exact hvalue _ (by omega)
  · exact pixelField_lt ..

/-- A line of which the bytes of a row's span were written: the pixels of the rectangle have their values, and every other pixel of the
line has its own. -/
theorem pixelValue_written {d : Depth} {line line' : Nat → Byte} {dx w : Nat} {value : Nat → Nat} (hw : 1 ≤ w)
    (hvalue : ∀ i, i < w → value i < 2 ^ d.bits)
    (hbytes : ∀ b, line' b =
      if pixelByte d dx ≤ b ∧ b < pixelByte d dx + rowSpan d dx w then writtenByte d line dx w value b else line b)
    (x : Nat) :
    pixelValue d line' x = if dx ≤ x ∧ x < dx + w then value (x - dx) else pixelValue d line x := by
  by_cases h : d = .d16
  · subst h
    have hline : ∀ b, line' b =
        if 2 * dx ≤ b ∧ b < 2 * dx + 2 * w then writtenByte .d16 line dx w value b else line b := hbytes
    simp only [pixelValue, hline]
    by_cases hin : dx ≤ x ∧ x < dx + w
    · have hsmall : value (x - dx) < 65536 := hvalue _ (by omega)
      have hhalf : (2 * x + 1) / 2 = x := by omega
      have hlow : 2 * dx ≤ 2 * x ∧ 2 * x < 2 * dx + 2 * w := by omega
      have hhigh : 2 * dx ≤ 2 * x + 1 ∧ 2 * x + 1 < 2 * dx + 2 * w := by omega
      rw [if_pos hlow, if_pos hhigh, if_pos hin]
      simp only [writtenByte, Nat.mul_mod_right, if_true, Nat.mul_add_mod, Nat.one_mod, Nat.one_ne_zero, if_false, hhalf,
        Nat.mul_div_cancel_left x Nat.two_pos, BitVec.toNat_ofNat]
      omega
    · have hlow : ¬(2 * dx ≤ 2 * x ∧ 2 * x < 2 * dx + 2 * w) := by omega
      have hhigh : ¬(2 * dx ≤ 2 * x + 1 ∧ 2 * x + 1 < 2 * dx + 2 * w) := by omega
      rw [if_neg hlow, if_neg hhigh, if_neg hin]
  · have hk := pixelsPerByte_pos d
    have hx : x / pixelsPerByte d * pixelsPerByte d + x % pixelsPerByte d = x := Nat.div_add_mod' ..
    have hspan : rowSpan d dx w = (dx + w - 1) / pixelsPerByte d - dx / pixelsPerByte d + 1 := by
      cases d <;> first | rfl | exact absurd rfl h
    rw [pixelValue_indexed h, pixelValue_indexed h, hbytes, pixelByte_indexed h, hspan]
    split
    · rw [pixelField_writtenByte h hvalue _ (Nat.mod_lt _ hk), hx]
    · rename_i hout
      rw [if_neg fun hin => hout ?_]
      have hlow : dx / pixelsPerByte d ≤ x / pixelsPerByte d := Nat.div_le_div_right hin.1
      have hhigh : x / pixelsPerByte d ≤ (dx + w - 1) / pixelsPerByte d := Nat.div_le_div_right (by omega)
      omega

/-! ### A granted row -/

/-- The value of each pixel of a job's row, from the state before it (R95, R96). -/
def Job.rowValue (s : State) (j : Job) : Nat → Nat :=
  match j.kind with
  | .fill v => fun _ => v
  | .copy src sx sy =>
    let f := s.alloc.table.get src.index
    fun i => pixelValue f.depth (lineBytes s f (j.sourceLine sy)) (sx + i)

theorem rowWrite_fst (s : State) (j : Job) :
    (rowWrite s j).1 =
      (s.alloc.table.get j.dest.index).addr
        (j.destLine * (s.alloc.table.get j.dest.index).stride + pixelByte (depthAt s j.dest) j.dx) := rfl

theorem rowWrite_snd (s : State) (j : Job) :
    (rowWrite s j).2 =
      rowBytes (depthAt s j.dest) (lineBytes s (s.alloc.table.get j.dest.index) j.destLine) j.dx j.w (j.rowValue s) := rfl

theorem rowValue_fill {s : State} {j : Job} {v : Nat} (h : j.kind = .fill v) (i : Nat) : j.rowValue s i = v := by
  simp only [Job.rowValue, h]

theorem rowValue_copy {s : State} {j : Job} {src : Handle} {sx sy : Nat} (h : j.kind = .copy src sx sy) (i : Nat) :
    j.rowValue s i =
      pixelValue (depthAt s src) (lineBytes s (s.alloc.table.get src.index) (j.sourceLine sy)) (sx + i) := by
  simp only [Job.rowValue, h, depthAt]

/-- A row's values have the depth of the destination (R90). -/
theorem rowValue_lt {s : State} {j : Job} (h : JobKindOk s j) (i : Nat) : j.rowValue s i < 2 ^ (depthAt s j.dest).bits := by
  unfold JobKindOk at h
  cases hk : j.kind with
  | fill v =>
    simp only [hk] at h
    rwa [rowValue_fill hk]
  | copy src sx sy =>
    simp only [hk] at h
    rw [rowValue_copy hk, ← h.2]
    exact pixelValue_lt ..

theorem getD_rowBytes {d : Depth} {line : Nat → Byte} {dx w : Nat} {value : Nat → Nat} {i : Nat} (h : i < rowSpan d dx w) :
    (rowBytes d line dx w value).getD i 0#8 = writtenByte d line dx w value (pixelByte d dx + i) := by
  simp [rowBytes, List.getD_eq_getElem?_getD, h]

theorem lineBytes_eq_lineOf (s : State) (e : SurfEntry) (y : Nat) : lineBytes s e y = lineOf s e y := by
  funext i
  simp only [lineBytes, lineOf, SurfEntry.addr, Config.blockBytes, Nat.add_assoc]

/-- The bytes of the destination line after a row: those of the row's span are written, the others stay. -/
theorem lineOf_after_row {s t : State} {e : SurfEntry} {d : Depth} {y dx w : Nat} {value : Nat → Nat}
    (hstore : t.store =
      Memory.storeRun s.store (e.addr (y * e.stride + pixelByte d dx)) (rowBytes d (lineBytes s e y) dx w value))
    (hons : t.powerOns = s.powerOns) (b : Nat) :
    lineOf t e y b =
      if pixelByte d dx ≤ b ∧ b < pixelByte d dx + rowSpan d dx w then writtenByte d (lineOf s e y) dx w value b
      else lineOf s e y b := by
  rw [lineOf, State.byteAt_storeRun hstore hons, length_rowBytes, lineBytes_eq_lineOf]
  have hiff : (e.addr (y * e.stride + pixelByte d dx) ≤ e.firstBlock * 2048 + y * e.stride + b ∧
      e.firstBlock * 2048 + y * e.stride + b < e.addr (y * e.stride + pixelByte d dx) + rowSpan d dx w) ↔
      (pixelByte d dx ≤ b ∧ b < pixelByte d dx + rowSpan d dx w) := by
    simp only [SurfEntry.addr, Config.blockBytes]
    omega
  by_cases hin : pixelByte d dx ≤ b ∧ b < pixelByte d dx + rowSpan d dx w
  · have hplace : e.firstBlock * 2048 + y * e.stride + b - e.addr (y * e.stride + pixelByte d dx) =
        b - pixelByte d dx := by
      simp only [SurfEntry.addr, Config.blockBytes]
      omega
    rw [if_pos (hiff.2 hin), if_pos hin, hplace, getD_rowBytes (by omega), Nat.add_sub_cancel' hin.1]
  · rw [if_neg (mt hiff.1 hin), if_neg hin]
    rfl

/-- Settles O43: the grant stores the row's bytes, whose pixels are the row's values. -/
theorem grantedRowWritesItsPixels : Obligations.GrantedRowWritesItsPixels := by
  unfold Obligations.GrantedRowWritesItsPixels
  intro s j rest hs hbusy hfetch hrow hjobs hturn e row y first
  have hok := hs.engine.job j (by rw [hjobs]; exact List.mem_cons_self)
  have hline : ∀ y0, row y0 = if j.direction = .down then y0 + j.rowsDone else y0 + j.h - 1 - j.rowsDone := fun _ => rfl
  have hdest : j.destLine = y := by
    simp only [y, hline, Job.destLine]
    cases j.direction <;> rfl
  have hsource : ∀ sy, j.sourceLine sy = row sy := fun sy => by
    simp only [hline, Job.sourceLine]
    cases j.direction <;> rfl
  obtain ⟨t, hexec, hstore, hons⟩ : ∃ t, exec .frameStoreGrant s = .next t ∧
      t.store = Memory.storeRun s.store (rowWrite s j).1 (rowWrite s j).2 ∧ t.powerOns = s.powerOns :=
    ⟨_, exec_grant_row_lawful hs hbusy hfetch hrow hjobs hturn, rfl, rfl⟩
  refine ⟨t, hexec, fun x _ => ?_, fun a ha => ?_⟩
  · have hrun : t.store = Memory.storeRun s.store (e.addr (y * e.stride + pixelByte e.depth j.dx))
        (rowBytes e.depth (lineBytes s e y) j.dx j.w (j.rowValue s)) := by
      rw [hstore, rowWrite_fst, rowWrite_snd, hdest]
      rfl
    rw [pixelValue_written (d := e.depth) hok.rows.2 (fun i _ => rowValue_lt hok.kind i) (lineOf_after_row hrun hons) x]
    refine ⟨fun hout => if_neg (by omega), fun hlow hhigh => ?_⟩
    rw [if_pos ⟨hlow, hhigh⟩]
    refine ⟨fun v hk => rowValue_fill hk _, fun src sx sy hk => ?_⟩
    have hdepth : depthAt s src = e.depth := by
      have hkind := hok.kind
      simp only [JobKindOk, hk] at hkind
      exact hkind.2
    rw [rowValue_copy hk, hdepth, hsource, lineBytes_eq_lineOf]
  · have hfirst : (rowWrite s j).1 = first := by
      rw [rowWrite_fst, hdest]
      exact (Nat.add_assoc ..).symm
    have hlen : (rowWrite s j).2.length = rowSpan e.depth j.dx j.w := length_rowBytes ..
    have hout : ¬((rowWrite s j).1 ≤ a ∧ a < (rowWrite s j).1 + (rowWrite s j).2.length) := by
      rw [hfirst, hlen]
      omega
    exact (State.byteAt_storeRun hstore hons a).trans (if_neg hout)

end Sys2Proof.Machine
end


section
/-! PROOFS. The palette's requests: PAL_GRANT, PAL_RELEASE, PAL_SEEK, PAL_WRITE and PAL_READ (R75 to R83). -/

namespace Sys2Proof.Machine

/-! ### PAL_GRANT (R75, R76) -/

theorem clearOfGrants_iff {s : State} {base n : Nat} :
    clearOfGrants s base n = true ↔
      ∀ q g, (s.pal.records.get q).grant = some g → base + n ≤ g.base ∨ g.base + g.size ≤ base := by
  rw [clearOfGrants, List.all_eq_true]
  refine ⟨fun h q g hg => ?_, fun h q _ => ?_⟩
  · have hq := h q (Port.mem_all q)
    rw [grantOf, hg] at hq
    simpa [clearOfGrant] using hq
  · cases hg : grantOf s q with
    | none => rfl
    | some g => simpa [clearOfGrant] using h q g hg

theorem mem_grantSizes {n : Nat} : n ∈ grantSizes ↔ n ∈ [2, 4, 8, 16, 32, 64, 128, 256] := by
  have hperm : grantSizes.Perm [2, 4, 8, 16, 32, 64, 128, 256] := by decide
  exact hperm.mem_iff

/-- The search for a base finds the lowest one that is clear. -/
theorem findBase_eq_some {s : State} {size i : Nat} (hi : i < 256 / size) (hclear : clearOfGrants s (i * size) size = true)
    (hlow : ∀ j, j < i → ¬clearOfGrants s (j * size) size = true) : findBase s size = some (i * size) := by
  have hfind : (List.range (256 / size)).find? ((fun b => clearOfGrants s b size) ∘ (· * size)) = some i :=
    List.find?_range_eq_some.2 ⟨hclear, List.mem_range.2 hi, fun j hj => by simpa using hlow j hj⟩
  rw [findBase, List.find?_map, hfind]
  rfl

theorem findBase_eq_none {s : State} {size : Nat} (h : ∀ i, i < 256 / size → ¬clearOfGrants s (i * size) size = true) :
    findBase s size = none := by
  rw [findBase, List.find?_eq_none]
  intro b hb
  obtain ⟨i, hi, rfl⟩ := List.mem_map.1 hb
  exact h i (List.mem_range.1 hi)

theorem findBase_isSome_iff {s : State} {size : Nat} :
    (findBase s size).isSome = true ↔ ∃ i, i < 256 / size ∧ clearOfGrants s (i * size) size = true := by
  rw [findBase, List.find?_isSome]
  simp

/-- The first size of the list that fits is the largest that does, for the list falls. -/
theorem largestGrant_eq {s : State} {largest : Nat} (hmax : ∀ n ∈ grantSizes, (findBase s n).isSome = true → n ≤ largest)
    (hfits : largest = 0 ∨ (largest ∈ grantSizes ∧ (findBase s largest).isSome = true)) : largestGrant s = largest := by
  have hfalls : grantSizes.Pairwise (· > ·) := by decide
  have hpos : ∀ n ∈ grantSizes, 0 < n := by decide
  cases hfind : grantSizes.find? fun n => (findBase s n).isSome with
  | none =>
    simp only [largestGrant, hfind]
    obtain rfl | ⟨hmem, hfit⟩ := hfits
    · rfl
    · exact absurd hfit (List.find?_eq_none.1 hfind largest hmem)
  | some n =>
    simp only [largestGrant, hfind]
    obtain ⟨hfit, ahead, behind, hsplit, hahead⟩ := List.find?_eq_some_iff_append.1 hfind
    have hn : n ∈ grantSizes := List.mem_of_find?_eq_some hfind
    have hle : n ≤ largest := hmax n hn hfit
    obtain rfl | ⟨hmem, hbest⟩ := hfits
    · exact absurd (hpos n hn) (by omega)
    · rw [hsplit] at hmem hfalls
      obtain hin | hin := List.mem_append.1 hmem
      · exact absurd hbest (by simpa using hahead largest hin)
      · obtain heq | hin := List.mem_cons.1 hin
        · exact heq.symm
        · have hlt := List.rel_of_pairwise_cons (List.pairwise_append.1 hfalls).2.1 hin
          omega

/-- Settles O26: the checks of R75, the lowest aligned base, and the entries made black. -/
theorem palGrantTakesTheLowestBase : Obligations.PalGrantTakesTheLowestBase := by
  unfold Obligations.PalGrantTakesTheLowestBase
  intro s p size hsize hadm clear answered
  have hclear : ∀ base n, clearOfGrants s base n = true ↔ clear base n := fun _ _ => clearOfGrants_iff
  have hnum : num16 (put16 size) 0 = size := num16_put16 hsize []
  have hexec : exec (.palGrant p) s = .next (palGrant p (put16 size) s) := exec_of_admitted (palGrant p) rfl hadm rfl
  simp only [answered, hexec, palGrant, hnum, mem_grantSizes, fillReply_eq_replied]
  refine ⟨fun hbad => ?_, fun g hgood hg => ?_, fun largest hgood hg hnone hmax hfits => ?_, fun i hgood hg hi hin hlow => ?_⟩
  · rw [if_pos hbad]
  · rw [if_neg (not_not.2 hgood), grantOf, hg]
    rfl
  · have hfound : findBase s size = none := findBase_eq_none fun i hi h => hnone i hi ((hclear _ _).1 h)
    have hlargest : largestGrant s = largest := largestGrant_eq
      (fun n hn hfit => hmax n (mem_grantSizes.1 hn) (by simpa only [findBase_isSome_iff, hclear] using hfit))
      (hfits.imp_right fun ⟨hn, hfit⟩ => ⟨mem_grantSizes.2 hn, by simpa only [findBase_isSome_iff, hclear] using hfit⟩)
    rw [if_neg (not_not.2 hgood), grantOf, hg]
    simp only [hfound, hlargest]
  · have hfound : findBase s size = some (i * size) :=
      findBase_eq_some hi ((hclear _ _).2 hin) fun j hj h => hlow j hj ((hclear _ _).1 h)
    rw [if_neg (not_not.2 hgood), grantOf, hg]
    simp only [hfound]
    exact ⟨_, _, rfl, fun n => ⟨mapRange_get .., mapRange_get ..⟩⟩

/-! ### PAL_RELEASE and PAL_SEEK (R77 to R81) -/

theorem showsIndexed_iff {s : State} {p : Port} :
    showsIndexed s p = true ↔ ∃ b ∈ s.layout.active.bands, b.key.owner = p ∧
      ∃ h x y, b.part = .surface h x y ∧ (s.alloc.table.get h.index).depth ≠ .d16 := by
  simp only [showsIndexed, List.any_eq_true, Bool.and_eq_true, decide_eq_true_iff]
  refine exists_congr fun b => and_congr_right fun _ => and_congr_right fun _ => ?_
  cases b.part with
  | fill c => simp
  | surface h x y => simp

theorem fillCursorReply_eq (p : Port) (st : Status) (payload : List Byte) (s : State) :
    fillCursorReply p st payload s = Replied s p st (payload ++ putCursor (s.pal.records.get p).cursor) :=
  fillReply_eq_replied ..

theorem withGrant_pending {p : Port} {s : State} {act : Grant → State} (h : Submitted s p) :
    withGrant p s act = Replied s p .pending (putCursor (s.pal.records.get p).cursor) := by
  rw [withGrant, if_pos (hasTransaction_iff_submitted.2 h), fillCursorReply_eq, List.nil_append]

theorem withGrant_noGrant {p : Port} {s : State} {act : Grant → State} (h : ¬Submitted s p)
    (hg : (s.pal.records.get p).grant = none) :
    withGrant p s act = Replied s p .noGrant (putCursor (s.pal.records.get p).cursor) := by
  rw [withGrant, if_neg (mt hasTransaction_iff_submitted.1 h), grantOf, hg, fillCursorReply_eq, List.nil_append]

theorem withGrant_acts {p : Port} {s : State} {act : Grant → State} {g : Grant} (h : ¬Submitted s p)
    (hg : (s.pal.records.get p).grant = some g) : withGrant p s act = act g := by
  rw [withGrant, if_neg (mt hasTransaction_iff_submitted.1 h), grantOf, hg]

/-- Settles O27: the checks of R77 and R81 in order. -/
theorem palReleaseAndSeekAct : Obligations.PalReleaseAndSeekAct := by
  unfold Obligations.PalReleaseAndSeekAct
  intro s p r indexed put
  have hput : ∀ c, putCursor c = put c := fun c => by cases c <;> rfl
  refine ⟨fun hadm => ?release, fun offset hadm => ?seek⟩
  case release =>
    rw [exec_of_admitted (palRelease p) rfl hadm rfl]
    simp only [palRelease, fillReply_eq_replied]
    refine ⟨fun hsub => ?_, fun hsub hg => ?_, fun g hsub hg hshown => ?_, fun g hsub hg hshown => ?_⟩
    · rw [if_pos (hasTransaction_iff_submitted.2 hsub)]
    all_goals rw [if_neg (mt hasTransaction_iff_submitted.1 hsub), grantOf, hg]
    · exact congrArg Host.Outcome.next (if_pos (showsIndexed_iff.2 hshown))
    · exact congrArg Host.Outcome.next (if_neg (mt showsIndexed_iff.1 hshown))
  case seek =>
    rw [exec_of_admitted (palSeek p) rfl hadm rfl, ← hput]
    refine ⟨fun hsub => ?_, fun hsub hg => ?_, fun g hsub hg hout => ?_, fun g hsub hg hin => ?_⟩
    · rw [palSeek, withGrant_pending hsub]
    · rw [palSeek, withGrant_noGrant hsub hg]
    · rw [palSeek, withGrant_acts hsub hg, num8_cons_zero, if_neg (Nat.not_lt.2 hout), fillCursorReply_eq, List.nil_append]
    · rw [palSeek, withGrant_acts hsub hg, num8_cons_zero, if_pos hin, fillCursorReply_eq, List.nil_append]
      simp only [setCursor, State.setPalRecord_pal, PerPort.get_set_same]
      rfl

/-! ### The cursor by its place in the grant (R79) -/

theorem cursorAt_place (place : Nat) : (cursorAt place).component.place = place % 3 := by
  have hlt : place % 3 < 3 := Nat.mod_lt _ (by decide)
  unfold cursorAt
  dsimp only
  split
  · simp [Component.place, *]
  · split
    · simp [Component.place, *]
    · simp only [Component.place]
      omega

theorem Component.place_injective {c k : Component} (h : c.place = k.place) : c = k := by
  cases c <;> cases k <;> first | rfl | cases h

theorem Component.place_lt (c : Component) : c.place < 3 := by cases c <;> decide

/-- The cursor at the place of a component of an entry names that component of it. -/
theorem cursorAt_of_place (q : Nat) (c : Component) : cursorAt (3 * q + c.place) = { offset := q, component := c } := by
  have hlt := c.place_lt
  have hcomponent : (cursorAt (3 * q + c.place)).component = c := by
    refine Component.place_injective ?_
    rw [cursorAt_place]
    omega
  have hoffset : (cursorAt (3 * q + c.place)).offset = q := by
    simp only [cursorAt]
    omega
  exact congrArg₂ Cursor.mk hoffset hcomponent

theorem cursorAt_parked_iff {size place : Nat} : (cursorAt place).parked size = true ↔ 3 * size ≤ place := by
  have hoffset : (cursorAt place).offset = place / 3 := rfl
  rw [Cursor.parked, decide_eq_true_iff, hoffset]
  omega

/-- A step of the cursor moves it to the next place (R79). -/
theorem advance_cursorAt {size place : Nat} (h : place < 3 * size) :
    (cursorAt place).advance size = cursorAt (place + 1) := by
  have hlt : place % 3 < 3 := Nat.mod_lt _ (by decide)
  obtain ⟨q, c, rfl⟩ : ∃ q c, place = 3 * q + Component.place c :=
    ⟨place / 3, (cursorAt place).component, by rw [cursorAt_place, Nat.div_add_mod]⟩
  rw [cursorAt_of_place]
  cases c with
  | red => exact (cursorAt_of_place q .green).symm
  | green => exact (cursorAt_of_place q .blue).symm
  | blue =>
    have hnext : (if q + 1 < size then q + 1 else size) = q + 1 := by
      simp only [Component.place] at h
      split <;> omega
    simp only [Cursor.advance, hnext]
    exact (cursorAt_of_place (q + 1) .red).symm

/-! ### PAL_WRITE (R82) -/

theorem component_withComponent (x : Colour) (k c : Component) (v : BitVec 6) :
    Colour.component (Colour.withComponent x k v) c = if c = k then v else Colour.component x c := by
  cases k <;> cases c <;> rfl

/-- A component stored in an array, and every other component as it was. -/
theorem component_storeComponent {a : Vector Colour 256} {n : Nat} (hn : n < 256) (k : Component) (b : Byte) (i : Fin 256)
    (c : Component) :
    Colour.component ((storeComponent a n k b).get i) c =
      if i.val = n ∧ c = k then b.setWidth 6 else Colour.component (a.get i) c := by
  rw [storeComponent, dif_pos hn, Vector.get_eq_getElem, Vector.getElem_set]
  by_cases hi : n = i.val
  · subst hi
    rw [if_pos rfl, component_withComponent]
    simp
  · rw [if_neg hi, if_neg fun h => hi h.1.symm]
    rfl

/-- The bytes of a PAL_WRITE are stored one after the other from the cursor's place until it parks (R82). -/
theorem storeComponents_spec {g : Grant} (hg : g.base + g.size ≤ 256) : ∀ (bytes : List Byte) (a : Vector Colour 256)
    (place n : Nat), place ≤ 3 * g.size →
    ∃ draft, storeComponents g bytes a (cursorAt place) n =
        (draft, cursorAt (place + min bytes.length (3 * g.size - place)), n + min bytes.length (3 * g.size - place)) ∧
      ∀ (i : Fin 256) (c : Component),
        Colour.component (draft.get i) c =
          if g.base ≤ i.val ∧ place ≤ 3 * (i.val - g.base) + c.place ∧
              3 * (i.val - g.base) + c.place < place + min bytes.length (3 * g.size - place) then
            (bytes.getD (3 * (i.val - g.base) + c.place - place) 0#8).setWidth 6
          else Colour.component (a.get i) c := by
  intro bytes
  induction bytes with
  | nil =>
    intro a place n _
    refine ⟨a, by simp [storeComponents], fun i c => (if_neg ?_).symm⟩
    simp only [List.length_nil, Nat.zero_min]
    omega
  | cons b rest ih =>
    intro a place n hplace
    by_cases hparked : 3 * g.size ≤ place
    · have hzero : min (b :: rest).length (3 * g.size - place) = 0 := by omega
      refine ⟨a, ?_, fun i c => (if_neg ?_).symm⟩
      · rw [hzero, storeComponents, if_pos (cursorAt_parked_iff.2 hparked)]
        rfl
      · rw [hzero]
        omega
    · have hlt : place < 3 * g.size := Nat.lt_of_not_le hparked
      have hcount : min (b :: rest).length (3 * g.size - place) = min rest.length (3 * g.size - (place + 1)) + 1 := by
        simp only [List.length_cons]
        omega
      have hoffset : (cursorAt place).offset = place / 3 := rfl
      obtain ⟨draft, heq, hget⟩ := ih (storeComponent a (g.base + (cursorAt place).offset) (cursorAt place).component b)
        (place + 1) (n + 1) hlt
      refine ⟨draft, ?_, fun i c => ?_⟩
      · rw [storeComponents, if_neg (mt cursorAt_parked_iff.1 hparked), advance_cursorAt hlt, heq, hcount]
        simp only [Nat.add_assoc, Nat.add_comm 1]
      · have hin : g.base + (cursorAt place).offset < 256 := by omega
        have hhere : (i.val = g.base + (cursorAt place).offset ∧ c = (cursorAt place).component) ↔
            (g.base ≤ i.val ∧ 3 * (i.val - g.base) + c.place = place) := by
          have hcplace := c.place_lt
          have hkplace := cursorAt_place place
          refine ⟨fun ⟨hi, hc⟩ => ?_, fun ⟨hle, heq⟩ => ⟨by omega, Component.place_injective ?_⟩⟩
          · subst hc
            omega
          · omega
        rw [hget, component_storeComponent hin, hcount]
        by_cases hfirst : g.base ≤ i.val ∧ 3 * (i.val - g.base) + c.place = place
        · rw [if_neg (by omega), if_pos (hhere.2 hfirst), if_pos (by omega), hfirst.2, Nat.sub_self, List.getD_cons_zero]
        · rw [if_neg (mt hhere.1 hfirst)]
          by_cases hlater : g.base ≤ i.val ∧ place + 1 ≤ 3 * (i.val - g.base) + c.place ∧
              3 * (i.val - g.base) + c.place < place + 1 + min rest.length (3 * g.size - (place + 1))
          · have hindex : 3 * (i.val - g.base) + c.place - place = 3 * (i.val - g.base) + c.place - (place + 1) + 1 := by
              omega
            rw [if_pos hlater, if_pos (by omega), hindex, List.getD_cons_succ]
          · rw [if_neg hlater, if_neg (by omega)]

theorem cursorOf_eq {s : State} {p : Port} {g : Grant} {c : Cursor} (h : (s.pal.records.get p).cursor = some c) :
    cursorOf s p g = c := by simp only [cursorOf, h]

/-- PAL_SEEK, PAL_WRITE and PAL_READ refuse a port with a submitted transaction, and one without a grant (R81). -/
theorem cursorRefusals_of_withGrant {c : Instr} {s : State} {p : Port} {act : Grant → State}
    (h : exec c s = .next (withGrant p s act)) : CursorRefusals c s p := by
  have hput : ∀ o : Option Cursor, putCursor o =
      match o with
      | some k => put16 k.offset ++ [k.component.code]
      | none => [] := fun o => by cases o <;> rfl
  unfold CursorRefusals
  intro cursor
  have hcursor : putCursor (s.pal.records.get p).cursor = cursor := hput _
  exact ⟨fun hsub => by rw [h, withGrant_pending hsub, hcursor], fun hsub hg => by rw [h, withGrant_noGrant hsub hg, hcursor]⟩

/-- Settles O28: the refusals of R81, then the components stored. -/
theorem palWriteStoresComponents : Obligations.PalWriteStoresComponents := by
  unfold Obligations.PalWriteStoresComponents
  have hexec : ∀ {s p bytes}, Admitted s p .palWrite bytes → bytes.length ≤ 261 →
      exec (.palWrite p) s = .next (palWrite p bytes s) := fun hadm hlen =>
    exec_of_admitted (palWrite _) rfl hadm (lengthOk_iff.2 ⟨Nat.zero_le _, hlen⟩)
  refine ⟨fun s p bytes hadm hlen => cursorRefusals_of_withGrant (hexec hadm hlen),
    fun s p bytes g place hadm hlen hsub hg hin hplace hcursor => ?_⟩
  intro n r put
  rw [hexec hadm hlen, palWrite, withGrant_acts hsub hg, cursorOf_eq hcursor]
  refine ⟨fun hbad => ?_, fun hsome hmax => ?_⟩
  · rw [if_pos (hbad.imp_left fun h => by rw [h]; rfl), fillCursorReply_eq, hcursor]
    rfl
  · obtain ⟨draft, heq, hget⟩ := storeComponents_spec hin bytes s.pal.draft place 0 hplace
    have hlength : ¬(bytes.length = 0 ∨ 240 < bytes.length) := by
      rw [List.length_eq_zero_iff]
      exact not_or.2 ⟨hsome, Nat.not_lt.2 hmax⟩
    rw [Nat.zero_add] at heq
    refine ⟨draft, ?_, hget⟩
    rw [if_neg hlength, heq]
    simp only [fillCursorReply_eq, PerPort.get_set_same]
    rfl

/-! ### PAL_READ (R83) -/

/-- The components that a PAL_READ returns, from the cursor's place on until it parks (R83). -/
theorem readComponents_spec {g : Grant} (a : Vector Colour 256) : ∀ (count place : Nat), place ≤ 3 * g.size →
    ∃ bytes, readComponents g a count (cursorAt place) = (bytes, cursorAt (place + min count (3 * g.size - place))) ∧
      bytes.length = min count (3 * g.size - place) ∧
      ∀ k, k < bytes.length →
        bytes.getD k 0#8 =
          (Colour.component (entryAt a (g.base + (cursorAt (place + k)).offset)) (cursorAt (place + k)).component).setWidth 8
  | 0, place, _ => ⟨[], by simp [readComponents], by simp, fun k hk => absurd hk (Nat.not_lt_zero k)⟩
  | count + 1, place, hplace => by
    by_cases hparked : 3 * g.size ≤ place
    · have hzero : min (count + 1) (3 * g.size - place) = 0 := by omega
      refine ⟨[], ?_, hzero.symm, fun k hk => absurd hk (Nat.not_lt_zero k)⟩
      rw [hzero, readComponents, if_pos (cursorAt_parked_iff.2 hparked)]
      rfl
    · have hlt : place < 3 * g.size := Nat.lt_of_not_le hparked
      have hcount : min (count + 1) (3 * g.size - place) = min count (3 * g.size - (place + 1)) + 1 := by omega
      obtain ⟨bytes, heq, hlen, hget⟩ := readComponents_spec a count (place + 1) hlt
      refine ⟨(Colour.component (entryAt a (g.base + (cursorAt place).offset)) (cursorAt place).component).setWidth 8 :: bytes,
        ?_, ?_, fun k hk => ?_⟩
      · rw [readComponents, if_neg (mt cursorAt_parked_iff.1 hparked), advance_cursorAt hlt, heq, hcount]
        simp only [Nat.add_assoc, Nat.add_comm 1]
      · rw [List.length_cons, hlen, hcount]
      · cases k with
        | zero => rfl
        | succ k =>
          have hk' : k < bytes.length := Nat.lt_of_succ_lt_succ hk
          rw [List.getD_cons_succ, hget k hk', Nat.add_assoc, Nat.add_comm 1 k]

/-- Settles O29: the refusals of R81, then the components read. -/
theorem palReadReturnsComponents : Obligations.PalReadReturnsComponents := by
  unfold Obligations.PalReadReturnsComponents
  refine ⟨fun s p count hadm => cursorRefusals_of_withGrant (exec_of_admitted (palRead p) rfl hadm rfl),
    fun s p count g place hadm hsub hg hin hplace hcursor => ?_⟩
  intro n r put
  rw [exec_of_admitted (palRead p) rfl hadm rfl, palRead, withGrant_acts hsub hg, cursorOf_eq hcursor]
  have hn : n = min count.toNat (3 * g.size - place) := rfl
  refine ⟨fun hbad => ?_, fun hmin hmax => ?_⟩
  · refine congrArg Host.Outcome.next ((if_pos hbad).trans ?_)
    rw [fillCursorReply_eq, hcursor]
    rfl
  · obtain ⟨bytes, heq, hlen, hget⟩ := readComponents_spec (g := g) s.pal.draft count.toNat place hplace
    refine ⟨bytes, hlen, ?_, fun i c hbase hlow hhigh => ?_⟩
    · have hcount : ¬(count.toNat = 0 ∨ 240 < count.toNat) := by omega
      refine congrArg Host.Outcome.next ((if_neg hcount).trans ?_)
      rw [num8_cons_zero, heq]
      simp only [fillCursorReply_eq, setCursor, State.setPalRecord_pal, PerPort.get_set_same, hlen]
      rfl
    · have hk : 3 * (i.val - g.base) + c.place - place < bytes.length := by
        rw [hlen]
        omega
      rw [hget _ hk, Nat.add_sub_cancel' hlow, cursorAt_of_place, Nat.add_sub_cancel' hbase, entryAt_get]

end Sys2Proof.Machine
end


section
/-! PROOFS. Requests of the allocator, the layout controller and the copy engine: SURF_ALLOC (R54, R55), SUBMIT (R23), JOB_FILL and
JOB_COPY (R90, R91, R96). -/

namespace Sys2Proof.Machine

/-! ### SURF_ALLOC (R54, R55) -/

theorem Depth.ofNat?_eq_some {n : Nat} {d : Depth} : Depth.ofNat? n = some d ↔ d.bits = n := by
  constructor
  · intro h
    unfold Depth.ofNat? at h
    split at h <;> cases h <;> rfl
  · rintro rfl
    cases d <;> rfl

theorem Depth.bits_mem (d : Depth) : d.bits ∈ [1, 2, 4, 8, 16] := by cases d <;> decide

theorem lowestFree_eq_none {t : Vector SurfEntry 32} (h : ∀ i : Fin 32, (t.get i).state ≠ .free) : lowestFree t = none :=
  List.find?_eq_none.2 fun i _ => by simpa using h i

/-- The search for a FREE entry finds the lowest (R55). -/
theorem lowestFree_eq_some {t : Vector SurfEntry 32} {i : Fin 32} (hi : (t.get i).state = .free)
    (hlow : ∀ j : Fin 32, j < i → (t.get j).state ≠ .free) : lowestFree t = some i := by
  refine List.find?_eq_some_iff_getElem.2 ⟨by simpa using hi, i.val, by simp, by simp, fun j hj => ?_⟩
  have := hlow ⟨j, by omega⟩ hj
  simpa using this

/-- First fit takes the run from the first extent that is long enough (R55). -/
theorem takeRun_of_first {n : Nat} {x : Extent} (hx : n ≤ x.length) (behind : List Extent) : ∀ ahead : List Extent,
    (∀ y ∈ ahead, y.length < n) →
      takeRun n (ahead ++ x :: behind) =
        some (x.start, ahead ++ if x.length = n then behind else { start := x.start + n, length := x.length - n } :: behind)
  | [], _ => if_pos hx
  | y :: ahead, h => by
    have hshort : ¬n ≤ y.length := Nat.not_le.2 (h y List.mem_cons_self)
    rw [List.cons_append, takeRun, if_neg hshort,
      takeRun_of_first hx behind ahead fun z hz => h z (List.mem_cons_of_mem _ hz)]
    rfl

theorem foldl_max_length (fs : List Extent) : ∀ m : Nat,
    m ≤ fs.foldl (fun m x => max m x.length) m ∧ (∀ x ∈ fs, x.length ≤ fs.foldl (fun m x => max m x.length) m) ∧
      ∀ k, m ≤ k → (∀ x ∈ fs, x.length ≤ k) → fs.foldl (fun m x => max m x.length) m ≤ k := by
  induction fs with
  | nil => exact fun m => ⟨Nat.le_refl m, fun x hx => absurd hx List.not_mem_nil, fun k hk _ => hk⟩
  | cons y fs ih =>
    intro m
    obtain ⟨hstart, hall, hleast⟩ := ih (max m y.length)
    rw [List.foldl_cons]
    refine ⟨by omega, fun x hx => ?_, fun k hk h => hleast k ?_ fun x hx => h x (List.mem_cons_of_mem _ hx)⟩
    · obtain rfl | hx := List.mem_cons.1 hx
      · omega
      · exact hall x hx
    · have := h y List.mem_cons_self
      omega

/-- The longest free extent, from a bound that an extent reaches (R54). -/
theorem longestExtent_eq {fs : List Extent} {longest : Nat} (hall : ∀ x ∈ fs, x.length ≤ longest)
    (hreached : longest = 0 ∨ ∃ x ∈ fs, x.length = longest) : longestExtent fs = longest := by
  obtain ⟨-, hge, hleast⟩ := foldl_max_length fs 0
  have hle : longestExtent fs ≤ longest := hleast longest (Nat.zero_le _) hall
  obtain rfl | ⟨x, hx, rfl⟩ := hreached
  · exact Nat.le_zero.1 hle
  · exact Nat.le_antisymm hle (hge x hx)

/-- The geometry of an admitted SURF_ALLOC. -/
theorem askedGeometry_eq_some {pl : List Byte} {d : Depth} (hd : d.bits = num8 pl 4) (hw : 8 ≤ num16 pl 0 ∧ num16 pl 0 ≤ 2048)
    (hh : 1 ≤ num16 pl 2 ∧ num16 pl 2 ≤ 1024) : askedGeometry pl = some (num16 pl 0, num16 pl 2, d) := by
  simp only [askedGeometry, Depth.ofNat?_eq_some.2 hd]
  exact if_pos ⟨hw.1, hw.2, hh.1, hh.2⟩

theorem askedGeometry_eq_none {pl : List Byte}
    (h : ¬(8 ≤ num16 pl 0 ∧ num16 pl 0 ≤ 2048 ∧ 1 ≤ num16 pl 2 ∧ num16 pl 2 ≤ 1024 ∧
      num8 pl 4 ∈ [1, 2, 4, 8, 16])) : askedGeometry pl = none := by
  unfold askedGeometry
  cases hd : Depth.ofNat? (num8 pl 4) with
  | none => rfl
  | some d =>
    have hmem : num8 pl 4 ∈ [1, 2, 4, 8, 16] := Depth.ofNat?_eq_some.1 hd ▸ Depth.bits_mem d
    refine if_neg fun hin => h ?_
    obtain ⟨h1, h2, h3, h4⟩ := hin
    exact ⟨h1, h2, h3, h4, hmem⟩

/-- Settles O21: the checks of R54 one after the other, and the allocation of R55. -/
theorem surfAllocTakesTheFirstFit : Obligations.SurfAllocTakesTheFirstFit := by
  unfold Obligations.SurfAllocTakesTheFirstFit
  intro s p w h d hw hh hadm a answered
  have hwidth : num16 (put16 w ++ put16 h ++ [d]) 0 = w := num16_put16 hw (put16 h ++ [d])
  have hheight : num16 (put16 w ++ put16 h ++ [d]) 2 = h := num16_put16 hh [d]
  have hdepth : num8 (put16 w ++ put16 h ++ [d]) 4 = d.toNat := rfl
  have hexec : exec (.surfAlloc p) s = .next (surfAlloc p (put16 w ++ put16 h ++ [d]) s) :=
    exec_of_admitted (surfAlloc p) rfl hadm rfl
  simp only [answered, hexec, surfAlloc, fillReply_eq_replied]
  refine ⟨fun hbad => ?_, fun dep hdep hwmin hwmax hhmin hhmax => ?_⟩
  · rw [askedGeometry_eq_none (by rwa [hwidth, hheight, hdepth])]
    rfl
  · have hasked : askedGeometry (put16 w ++ put16 h ++ [d]) = some (w, h, dep) := by
      rw [askedGeometry_eq_some (by rw [hdep, hdepth]) (by rw [hwidth]; exact ⟨hwmin, hwmax⟩)
        (by rw [hheight]; exact ⟨hhmin, hhmax⟩), hwidth, hheight]
    simp only [hasked]
    refine ⟨fun hbig => ?_, fun hfits hfull => ?_, fun i hfits hfree hlow => ⟨fun hquota => ?_,
      fun longest hquota hall hshort hreached => ?_, fun ahead x behind hquota hsplit hahead hx => ?_⟩⟩
    · exact congrArg Host.Outcome.next (if_pos hbig)
    · rw [lowestFree_eq_none hfull]
      exact congrArg Host.Outcome.next (if_neg (Nat.not_lt.2 hfits))
    all_goals
      rw [lowestFree_eq_some hfree hlow]
      refine congrArg Host.Outcome.next ((if_neg (Nat.not_lt.2 hfits)).trans ?_)
    · exact if_pos hquota
    · have hnone : takeRun (blocksOf (strideOf w dep) h) s.alloc.free = none :=
        takeRun_eq_none.2 fun x hx => Nat.lt_of_le_of_lt (hall x hx) hshort
      have hlongest : longestExtent s.alloc.free = longest := longestExtent_eq hall hreached
      refine (if_neg (Nat.not_lt.2 hquota)).trans ?_
      simp only [hnone, hlongest]
    · refine (if_neg (Nat.not_lt.2 hquota)).trans ?_
      have hrun := takeRun_of_first (n := blocksOf (strideOf w dep) h) hx behind ahead hahead
      rw [← hsplit] at hrun
      simp only [a, hrun, makeSurface, Vector.get_eq_getElem, Vector.getElem_set_self]
      rfl

/-! ### SUBMIT (R23) -/

theorem hasEntry_iff {s : State} {p : Port} : hasEntry s p = true ↔ ∃ e ∈ s.layout.queue, e.port = p := by
  simp [hasEntry]

theorem outcomeUnread_iff {s : State} {p : Port} :
    outcomeUnread s p = true ↔ ∃ n ∈ (s.notices.get p).queue, n.isOutcome = true := by simp [outcomeUnread]

/-- A SUBMIT that passes the checks of R23. -/
theorem submit_of_checked {s : State} {p : Port} {pl : List Byte} (hentered : ¬∃ e ∈ s.layout.queue, e.port = p)
    (hunread : ¬∃ n ∈ (s.notices.get p).queue, n.isOutcome = true)
    (hsome : ¬(s.layout.staging.get p = [] ∧ (s.pal.records.get p).unpublished = false)) (hflag : num8 pl 1 ≤ 1) :
    submit p pl s =
      fillReply p .ok []
        (applyIfStopped (enqueueEntry p (builtEntry p (pl.getD 0 0#8) (decide (num8 pl 1 = 1)) s) s)) := by
  rw [submit, if_neg (mt hasEntry_iff.1 hentered), if_neg (mt outcomeUnread_iff.1 hunread), if_neg hsome,
    if_neg (Nat.not_lt.2 hflag)]

/-- Settles O32: the checks of R23 one after the other, and the entry at the tail. -/
theorem submitEntersTheQueue : Obligations.SubmitEntersTheQueue := by
  unfold Obligations.SubmitEntersTheQueue
  intro s p tag flag hadm edits answered jobs entered unread nothing
  have hexec : exec (.submit p) s = .next (submit p [tag, flag] s) := exec_of_admitted (submit p) rfl hadm rfl
  simp only [answered, hexec]
  refine ⟨fun hent => ?_, fun hent hun => ?_, fun hent hun hnone => ?_, fun hent hun hsome hflag => ?_,
    fun hent hun hsome hflag hstays => ?_⟩
  · rw [submit, if_pos (hasEntry_iff.2 hent), fillReply_eq_replied]
  · rw [submit, if_neg (mt hasEntry_iff.1 hent), if_pos (outcomeUnread_iff.2 hun), fillReply_eq_replied]
  · rw [submit, if_neg (mt hasEntry_iff.1 hent), if_neg (mt outcomeUnread_iff.1 hun), if_pos hnone, fillReply_eq_replied]
  · refine congrArg Host.Outcome.next ?_
    rw [submit, if_neg (mt hasEntry_iff.1 hent), if_neg (mt outcomeUnread_iff.1 hun), if_neg hsome]
    exact (if_pos hflag).trans (fillReply_eq_replied ..)
  · have hwait : decide (num8 [tag, flag] 1 = 1) = decide (flag = 1#8) := decide_eq_decide.2 (byte_eq_one_iff flag).symm
    have hawaited : (if decide (flag = 1#8) = true then jobsOf s p else []) = if flag = 1#8 then jobs else [] := by
      simp only [decide_eq_true_iff]
      rfl
    rw [submit_of_checked (pl := [tag, flag]) hent hun hsome hflag, hwait, builtEntry, hawaited]
    have hsame : ∀ x : Transaction, x.awaited = (if flag = 1#8 then jobs else []) →
        applyIfStopped (enqueueEntry p x s) = enqueueEntry p x s := by
      intro x hx
      obtain hrun | ⟨hflag1, hjobs, hheld⟩ := hstays
      · exact applyIfStopped_running hrun
      · refine applyIfStopped_of_held fun e he => ?_
        obtain he | he := List.mem_append.1 he
        · exact hheld e he
        · rw [List.mem_singleton.1 he, QueueEntry.held, hx, if_pos hflag1]
          simpa using hjobs
    rw [hsame _ rfl, fillReply_eq_replied]
    rfl

/-! ### JOB_FILL and JOB_COPY (R90, R91, R96) -/

theorem taggedJob_eq_none {s : State} {p : Port} {tag : Byte}
    (h : ∀ k ∈ s.engine.jobs.filter (fun k => decide (k.owner = p)), k.tag ≠ tag) : taggedJob s p tag = none := by
  refine List.find?_eq_none.2 fun k hk => ?_
  simp only [Bool.and_eq_true, decide_eq_true_iff, not_and]
  exact fun howner => h k (List.mem_filter.2 ⟨hk, decide_eq_true howner⟩)

theorem taggedJob_eq_some {s : State} {p : Port} {tag : Byte} {k : Job} (hk : k ∈ s.engine.jobs) (howner : k.owner = p)
    (htag : k.tag = tag) (honly : ∀ k' ∈ s.engine.jobs, k'.owner = p → k'.tag = tag → k' = k) :
    taggedJob s p tag = some k := by
  cases hfind : taggedJob s p tag with
  | none => exact absurd (List.find?_eq_none.1 hfind k hk) (by simp [howner, htag])
  | some k' =>
    have hmatch := List.find?_some hfind
    simp only [Bool.and_eq_true, decide_eq_true_iff] at hmatch
    rw [honly k' (List.mem_of_find?_eq_some hfind) hmatch.1 hmatch.2]

/-- A job is admitted behind a running one (R91). -/
theorem admitJob_of_running {s : State} {j : Job} (h : ∃ k ∈ s.engine.jobs, k.state ≠ .queued) :
    admitJob j s = { s with engine := { jobs := s.engine.jobs ++ [j], arrival := s.engine.arrival + 1#16 } } := by
  obtain ⟨k, hk, hstate⟩ := h
  have hsome : ∃ r, runningJob (s.engine.jobs ++ [j]) = some r :=
    Option.isSome_iff_exists.1 (List.find?_isSome.2 ⟨k, List.mem_append_left _ hk, by simpa using hstate⟩)
  obtain ⟨r, hr⟩ := hsome
  simp only [admitJob, startNextJob, hr]

/-- A job that an idle engine admits is started at once (R91, R93). -/
theorem admitJob_of_empty {s : State} {j : Job} (h : s.engine.jobs = []) (hj : j.state = .queued) :
    admitJob j s =
      { s with
        engine := { jobs := [{ j with state := .running }], arrival := s.engine.arrival + 1#16 }
        arb := { s.arb with engineRow := true } } := by
  have hnone : runningJob [j] = none := runningJob_queued fun k hk => by rw [List.mem_singleton.1 hk, hj]
  simp only [admitJob, startNextJob, h, List.nil_append, hnone]
  rfl

/-- Checks 4 and 5 of R90, and the admission. -/
theorem jobOffered_of_offerJob {c : Instr} {s : State} {p : Port} {j : Job} (h : exec c s = .next (offerJob p j s))
    (hj : j.state = .queued) : JobOffered c s p j := by
  have hcount : jobCount s p = (s.engine.jobs.filter fun k => decide (k.owner = p)).length := rfl
  unfold JobOffered
  simp only [h, offerJob, fillReply_eq_replied, ← hcount]
  refine ⟨fun k hk howner htag honly => ?_, fun hnew hfull => ?_, fun hempty => ?_, fun hnew hroom hmine hrun => ?_⟩
  · rw [taggedJob_eq_some hk howner htag honly]
  · rw [taggedJob_eq_none hnew]
    exact congrArg Host.Outcome.next (if_pos hfull)
  · have hnew : taggedJob s p j.tag = none := taggedJob_eq_none (by simp [hempty])
    have hroom : ¬(Config.maxJobs ≤ s.engine.jobs.length ∨ Config.maxJobsPerPort ≤ jobCount s p) := by
      simp [hcount, hempty, Config.maxJobs, Config.maxJobsPerPort]
    rw [hnew]
    refine congrArg Host.Outcome.next ((if_neg hroom).trans ?_)
    rw [admitJob_of_empty hempty hj, hempty]
    rfl
  · rw [taggedJob_eq_none hnew]
    refine congrArg Host.Outcome.next ((if_neg ?_).trans ?_)
    · exact not_or.2 ⟨Nat.not_le.2 hroom, Nat.not_le.2 hmine⟩
    · rw [admitJob_of_running hrun]
      rfl

theorem rectInside_iff {e : SurfEntry} {x y w h : Nat} :
    rectInside e x y w h = true ↔ 1 ≤ w ∧ 1 ≤ h ∧ x + w ≤ e.width ∧ y + h ≤ e.height := by
  simp only [rectInside, Bool.and_eq_true, decide_eq_true_iff, and_assoc]

/-- Settles O38: the checks of R90 one after the other, and the job offered to the queue. -/
theorem jobsAreAdmitted : Obligations.JobsAreAdmitted := by
  unfold Obligations.JobsAreAdmitted
  refine ⟨fun s p => ⟨fun pl hadm hmin hmax hindex => ?_, fun pl hadm hmin hmax hindex => ?_,
    fun pl hadm hmin hmax hindex => ?_⟩, ?_⟩
  · rw [exec_of_admitted (jobFill p) rfl hadm (lengthOk_iff.2 ⟨hmin, hmax⟩), jobFill, handleAt_eq_none hindex,
      ← fillReply_eq_replied]
    rfl
  · rw [exec_of_admitted (jobCopy p) rfl hadm (lengthOk_iff.2 ⟨hmin, hmax⟩), jobCopy, handleAt_eq_none hindex,
      ← fillReply_eq_replied]
    rfl
  · rw [exec_of_admitted (jobCopy p) rfl hadm (lengthOk_iff.2 ⟨hmin, hmax⟩), jobCopy, handleAt_eq_none hindex,
      ← fillReply_eq_replied]
    cases ownLiveSurface s p (handleAt pl 1) <;> rfl
  intro s p tag d f dx dy sx sy w h value hdx hdy hsx hsy hw hh hvalue own inside depth job
  have howned : ∀ {x}, own x → ownLiveSurface s p (some x) = some (x, s.alloc.table.get x.index) :=
    fun hx => ownLiveSurface_of_own ⟨hx.1.1, hx.1.2, hx.2⟩
  have hforeign : ∀ {x}, ¬own x → ownLiveSurface s p (some x) = none :=
    fun hx => ownLiveSurface_of_not_own fun hin => hx ⟨⟨hin.1, hin.2.1⟩, hin.2.2⟩
  have hrect : ∀ x x0 y0, rectInside (s.alloc.table.get x.index) x0 y0 w h = true ↔ inside x x0 y0 :=
    fun _ _ _ => rectInside_iff
  refine ⟨fun hadm => ?fill, fun hadm => ?copy⟩
  case fill =>
    obtain ⟨pl, hpl⟩ : ∃ pl, pl = [tag] ++ putHandle d ++ put16 dx ++ put16 dy ++ put16 w ++ put16 h ++ put16 value :=
      ⟨_, rfl⟩
    have hhandle : handleAt pl 1 = some d := by
      rw [hpl]
      simp only [List.append_assoc]
      exact handleAt_putHandle_append d (put16 dx ++ (put16 dy ++ (put16 w ++ (put16 h ++ put16 value))))
    have htag : pl.getD 0 0#8 = tag := by rw [hpl]; rfl
    have h3 : num16 pl 3 = dx := by
      rw [hpl]; simp only [List.append_assoc]; exact num16_put16 hdx (put16 dy ++ (put16 w ++ (put16 h ++ put16 value)))
    have h5 : num16 pl 5 = dy := by
      rw [hpl]; simp only [List.append_assoc]; exact num16_put16 hdy (put16 w ++ (put16 h ++ put16 value))
    have h7 : num16 pl 7 = w := by
      rw [hpl]; simp only [List.append_assoc]; exact num16_put16 hw (put16 h ++ put16 value)
    have h9 : num16 pl 9 = h := by rw [hpl]; simp only [List.append_assoc]; exact num16_put16 hh (put16 value)
    have h11 : num16 pl 11 = value := by rw [hpl]; simp only [List.append_assoc]; exact num16_put16 hvalue []
    have hexec : exec (.jobFill p) s = .next (jobFill p pl s) := by
      rw [hpl]
      exact exec_of_admitted (jobFill p) rfl hadm rfl
    simp only [jobFill, hhandle, htag, h3, h5, h7, h9, h11] at hexec
    refine ⟨fun hnot => ?_, fun hown hbad => ?_, fun hown hin hfits => ?_⟩
    · rw [hexec, hforeign hnot]
      exact congrArg Host.Outcome.next (fillReply_eq_replied ..)
    · rw [hexec, howned hown]
      refine congrArg Host.Outcome.next ((if_pos ?_).trans (fillReply_eq_replied ..))
      rw [hrect, ← Nat.not_lt, ← not_and_or]
      exact hbad
    · rw [howned hown] at hexec
      refine jobOffered_of_offerJob (hexec.trans (congrArg Host.Outcome.next (if_neg ?_))) rfl
      rw [hrect, ← Nat.not_lt, ← not_and_or, not_not]
      exact ⟨hin, hfits⟩
  case copy =>
    obtain ⟨pl, hpl⟩ : ∃ pl, pl = [tag] ++ putHandle f ++ put16 sx ++ put16 sy ++ putHandle d ++ put16 dx ++ put16 dy ++
        put16 w ++ put16 h := ⟨_, rfl⟩
    have hsource : handleAt pl 1 = some f := by
      rw [hpl]
      simp only [List.append_assoc]
      exact handleAt_putHandle_append f
        (put16 sx ++ (put16 sy ++ (putHandle d ++ (put16 dx ++ (put16 dy ++ (put16 w ++ put16 h))))))
    have hdest : handleAt pl 7 = some d := by
      rw [hpl]
      simp only [List.append_assoc]
      exact handleAt_putHandle_append d (put16 dx ++ (put16 dy ++ (put16 w ++ put16 h)))
    have htag : pl.getD 0 0#8 = tag := by rw [hpl]; rfl
    have h3 : num16 pl 3 = sx := by
      rw [hpl]; simp only [List.append_assoc]
      exact num16_put16 hsx (put16 sy ++ (putHandle d ++ (put16 dx ++ (put16 dy ++ (put16 w ++ put16 h)))))
    have h5 : num16 pl 5 = sy := by
      rw [hpl]; simp only [List.append_assoc]
      exact num16_put16 hsy (putHandle d ++ (put16 dx ++ (put16 dy ++ (put16 w ++ put16 h))))
    have h9 : num16 pl 9 = dx := by
      rw [hpl]; simp only [List.append_assoc]; exact num16_put16 hdx (put16 dy ++ (put16 w ++ put16 h))
    have h11 : num16 pl 11 = dy := by
      rw [hpl]; simp only [List.append_assoc]; exact num16_put16 hdy (put16 w ++ put16 h)
    have h13 : num16 pl 13 = w := by rw [hpl]; simp only [List.append_assoc]; exact num16_put16 hw (put16 h)
    have h15 : num16 pl 15 = h := by rw [hpl]; simp only [List.append_assoc]; exact num16_put16 hh []
    have hexec : exec (.jobCopy p) s = .next (jobCopy p pl s) := by
      rw [hpl]
      exact exec_of_admitted (jobCopy p) rfl hadm rfl
    simp only [jobCopy, hsource, hdest, htag, h3, h5, h9, h11, h13, h15] at hexec
    refine ⟨fun hnot => ?_, fun hd hf hdiff => ?_, fun hd hf hsame hbad => ?_, fun hd hf hsame hin hfrom => ?_⟩
    · rw [hexec]
      by_cases hf : own f
      · rw [howned hf, hforeign fun hd => hnot ⟨hd, hf⟩]
        exact congrArg Host.Outcome.next (fillReply_eq_replied ..)
      · rw [hforeign hf]
        exact congrArg Host.Outcome.next (fillReply_eq_replied ..)
    all_goals rw [howned hd, howned hf] at hexec
    · rw [hexec]
      exact congrArg Host.Outcome.next ((if_pos hdiff).trans (fillReply_eq_replied ..))
    · rw [hexec]
      refine congrArg Host.Outcome.next ((if_neg (not_not.2 hsame)).trans ((if_pos ?_).trans (fillReply_eq_replied ..)))
      rw [hrect, hrect, ← not_and_or]
      exact hbad
    · refine jobOffered_of_offerJob (hexec.trans (congrArg Host.Outcome.next
        ((if_neg (not_not.2 hsame)).trans (if_neg ?_)))) rfl
      rw [hrect, hrect, ← not_and_or, not_not]
      exact ⟨hin, hfrom⟩

end Sys2Proof.Machine
end


section
/-! PROOFS. The notices of an event in an order left open (R179), FRAME_START (R108, R113, R125 to R127), and the sequencer's answer to a
change of demand (R135 to R143). -/

namespace Sys2Proof.Machine

/-! ### Postings merged (R179; log 7) -/

/-- What a sequence of postings makes of a port's queue: those addressed to it, one after another, when its session is OPEN. -/
theorem deliver_notices_get (xs : List Posting) : ∀ (s : State) (q : Port),
    (deliver xs s).notices.get q =
      if (s.sessions.get q).state = .opened then (noticesFor q xs).foldl NoticeQueue.take (s.notices.get q)
      else s.notices.get q := by
  induction xs with
  | nil => exact fun s q => (ite_self _).symm
  | cons x xs ih =>
    intro s q
    rw [deliver_cons, ih, post_sessions, post_notices_get]
    by_cases hx : x.1 = q
    · have hfor : noticesFor q (x :: xs) = x.2 :: noticesFor q xs := by simp [noticesFor, hx]
      rw [hfor, List.foldl_cons]
      by_cases hopen : (s.sessions.get q).state = .opened
      · rw [if_pos hopen, if_pos hopen, if_pos ⟨hx.symm, hx ▸ hopen⟩, hx]
      · rw [if_neg hopen, if_neg hopen, if_neg fun h => hopen (hx ▸ h.2)]
    · have hfor : noticesFor q (x :: xs) = noticesFor q xs := by simp [noticesFor, hx]
      rw [hfor, if_neg (c := q = x.1 ∧ _) fun h => hx h.1.symm]

/-- The notices that postings leave depend on the sessions and the notices before them alone. -/
theorem deliver_notices_congr {s t : State} (xs : List Posting) (hn : s.notices = t.notices)
    (hs : ∀ q, (s.sessions.get q).state = .opened ↔ (t.sessions.get q).state = .opened) :
    (deliver xs s).notices = (deliver xs t).notices := by
  refine PerPort.ext_get fun q => ?_
  rw [deliver_notices_get, deliver_notices_get, hn]
  by_cases h : (t.sessions.get q).state = .opened
  · rw [if_pos h, if_pos ((hs q).2 h)]
  · rw [if_neg h, if_neg (mt (hs q).1 h)]

theorem interleave_perm {α : Type} (turn : Nat → Nat) : ∀ (as : List α) (i : Nat) (bs : List α),
    (interleave turn i as bs).Perm (as ++ bs)
  | [], i, bs => by rw [interleave_nil_left, List.nil_append]
  | a :: as, i, [] => by rw [interleave_nil_right, List.append_nil]
  | a :: as, i, b :: bs => by
    have ih := interleave_perm turn as (i + 1) ((b :: bs).drop (turn i % ((b :: bs).length + 1)))
    rw [interleave]
    refine List.perm_middle.trans (List.Perm.cons a ?_)
    refine (ih.append_left _).trans ?_
    conv_rhs => rw [← List.take_append_drop (turn i % ((b :: bs).length + 1)) (b :: bs)]
    exact List.perm_append_comm_assoc _ _ _

theorem sublist_interleave {α : Type} (turn : Nat → Nat) : ∀ (as : List α) (i : Nat) (bs : List α),
    as.Sublist (interleave turn i as bs) ∧ bs.Sublist (interleave turn i as bs)
  | [], i, bs => by
    rw [interleave_nil_left]
    exact ⟨List.nil_sublist _, List.Sublist.refl _⟩
  | a :: as, i, [] => by
    rw [interleave_nil_right]
    exact ⟨List.Sublist.refl _, List.nil_sublist _⟩
  | a :: as, i, b :: bs => by
    obtain ⟨hleft, hright⟩ :=
      sublist_interleave turn as (i + 1) ((b :: bs).drop (turn i % ((b :: bs).length + 1)))
    rw [interleave]
    refine ⟨(hleft.cons_cons a).trans (List.sublist_append_right _ _), ?_⟩
    conv_lhs => rw [← List.take_append_drop (turn i % ((b :: bs).length + 1)) (b :: bs)]
    exact (List.Sublist.refl _).append (hright.cons a)

/-- The merged postings of all ports, as one port takes them. -/
theorem noticesFor_merged (d : Nat) (xs ys zs : List Posting) (q : Port) :
    noticesFor q (Port.all.flatMap (mergedPostings d xs ys zs)) = (mergedPostings d xs ys zs q).map Prod.snd := by
  have hown : ∀ p, (mergedPostings d xs ys zs p).filter (fun x => decide (x.1 = q)) =
      if p = q then mergedPostings d xs ys zs p else [] := fun p => by
    split
    · rename_i h
      exact List.filter_eq_self.2 fun x hx => by simpa [← h] using (mem_mergedPostings.1 hx).1
    · rename_i h
      refine List.filter_eq_nil_iff.2 fun x hx => ?_
      rw [(mem_mergedPostings.1 hx).1]
      simpa using h
  rw [noticesFor, List.filter_flatMap]
  refine congrArg (List.map Prod.snd) ?_
  simp only [hown]
  cases q <;> simp [Port.all]

/-- The notice block takes what three blocks post at one event, each block's postings in its order (R179). -/
theorem toldMerged_of_deliverAny {s u t : State} {xs ys zs : List Posting} (hn : u.notices = s.notices)
    (hs : ∀ q, (u.sessions.get q).state = .opened ↔ (s.sessions.get q).state = .opened)
    (ht : t.notices = (deliverAny xs ys zs u).notices) : ToldMerged s t [xs, ys, zs] := by
  intro q
  have hinner := interleave_perm (Config.postingTurn (u.draws + 1) q.toNat) (postingsTo q ys) 0 (postingsTo q zs)
  have houter := interleave_perm (Config.postingTurn u.draws q.toNat) (postingsTo q xs) 0
    (interleave (Config.postingTurn (u.draws + 1) q.toNat) 0 (postingsTo q ys) (postingsTo q zs))
  obtain ⟨hxs, hrest⟩ := sublist_interleave (Config.postingTurn u.draws q.toNat) (postingsTo q xs) 0
    (interleave (Config.postingTurn (u.draws + 1) q.toNat) 0 (postingsTo q ys) (postingsTo q zs))
  obtain ⟨hys, hzs⟩ := sublist_interleave (Config.postingTurn (u.draws + 1) q.toNat) (postingsTo q ys) 0 (postingsTo q zs)
  refine ⟨(mergedPostings u.draws xs ys zs q).map Prod.snd, ?_, ?_, ?_⟩
  · have hall := (houter.trans (hinner.append_left _)).map Prod.snd
    have hflat : [xs, ys, zs].flatMap (noticesFor q) =
        (postingsTo q xs ++ (postingsTo q ys ++ postingsTo q zs)).map Prod.snd := by
      simp only [List.flatMap_cons, List.flatMap_nil, List.append_nil, List.map_append]
      rfl
    rwa [hflat]
  · intro ws hws
    simp only [List.mem_cons, List.not_mem_nil, or_false] at hws
    obtain rfl | rfl | rfl := hws
    · exact hxs.map _
    · exact (hys.trans hrest).map _
    · exact (hzs.trans hrest).map _
  · have hget : t.notices.get q = (deliver (Port.all.flatMap (mergedPostings u.draws xs ys zs)) u).notices.get q := by
      rw [ht]
      rfl
    rw [hget, deliver_notices_get, noticesFor_merged, hn]
    by_cases h : (s.sessions.get q).state = .opened
    · rw [if_pos h, if_pos ((hs q).2 h)]
    · rw [if_neg h, if_neg (mt (hs q).1 h)]

/-- The blocks of an event may be named again: in another order, and without those that post nothing. -/
theorem ToldMerged.rename {s t : State} {blocks blocks' : List (List Posting)} (h : ToldMerged s t blocks)
    (hperm : blocks.flatten.Perm blocks'.flatten) (hsub : blocks' ⊆ blocks) : ToldMerged s t blocks' := by
  intro q
  obtain ⟨ns, hns, hblocks, hget⟩ := h q
  have hfor : ∀ bs : List (List Posting), bs.flatMap (noticesFor q) = noticesFor q bs.flatten := fun bs => by
    simp only [noticesFor, List.filter_flatten, List.map_flatten, List.map_map]
    rfl
  refine ⟨ns, ?_, fun xs hxs => hblocks xs (hsub hxs), hget⟩
  rw [hfor] at hns ⊢
  exact hns.trans ((hperm.filter _).map _)

theorem noticesFor_powerToEach (q : Port) (st : PowerState) : noticesFor q (powerToEach st) = [.power st] := by
  cases q <;> rfl

/-- One POWER posting to each port, and no other posting at the event (R145). -/
theorem powerTold_of_merged {s t : State} {st : PowerState} (h : ToldMerged s t [powerToEach st, [], []]) :
    PowerTold s t st := by
  intro q
  obtain ⟨ns, hns, -, hget⟩ := h q
  have hone : ns = [.power st] := by
    have hflat : [powerToEach st, [], []].flatMap (noticesFor q) = [.power st] := by
      simp only [List.flatMap_cons, noticesFor_powerToEach]
      rfl
    rw [hflat] at hns
    exact List.perm_singleton.1 hns
  rw [hget, hone]
  rfl

/-- An event without postings leaves every queue. -/
theorem notices_eq_of_merged {s t : State} (h : ToldMerged s t [[], [], []]) : t.notices = s.notices := by
  refine PerPort.ext_get fun q => ?_
  obtain ⟨ns, hns, -, hget⟩ := h q
  have hnil : ns = [] := List.perm_nil.1 hns
  rw [hget, hnil]
  exact ite_self _

/-! ### FRAME_START (R108, R113, R125 to R127) -/

theorem takePending_eq (g : TimingGenerator) :
    g.takePending = { g with active := g.pending.getD g.active, pending := none } := by
  unfold TimingGenerator.takePending
  cases h : g.pending with
  | none => simp only [Option.getD_none]; rw [← h]
  | some t => rfl

theorem beginFrame_records (s : State) :
    (beginFrame s).1.fresh.records = s.fresh.records.map (ageRecord s.layout.active.bands) := by
  unfold beginFrame
  dsimp only
  rw [sourceLine_frame]

theorem beginFrame_staleSet (s : State) :
    (beginFrame s).1.fresh.staleSet = ((beginFrame s).1.fresh.records.filter FreshRecord.mark).map FreshRecord.key := by
  rw [beginFrame_records]
  unfold beginFrame
  dsimp only
  rw [sourceLine_frame]

theorem beginFrame_posts (s : State) : (beginFrame s).2 = staleTold s := by
  simp only [beginFrame, staleTold, List.flatMap_map]
  rfl

/-- One record aged at FRAME_START, by the table of R125. -/
theorem ageRecord_eq (bs : List Band) (r : FreshRecord) :
    ageRecord bs r =
      if r.mark = true ∨ limitOf bs r.key = 0 then r
      else { r with age := r.age + 1, mark := decide (r.age + 1 = limitOf bs r.key) } := by
  unfold ageRecord
  split
  · rfl
  · rename_i h
    obtain ⟨hmark, hlimit⟩ := not_or.1 h
    have hmin : 1 ≤ limitOf bs r.key := Nat.one_le_iff_ne_zero.2 hlimit
    simp [marksNow, hmark, hmin]

/-- FRAME_START sources line 0, with the stale set just published. -/
theorem beginFrame_eq_sourceLine (s : State) :
    (beginFrame s).1 =
      sourceLine 0
        { s with
          timing := { s.timing.takePending with period := .display, line := 0, part := .sync }
          fresh := (beginFrame s).1.fresh } := by
  have hfresh : (beginFrame s).1.fresh =
      { records := s.fresh.records.map (ageRecord s.layout.active.bands)
        staleSet := ((s.fresh.records.map (ageRecord s.layout.active.bands)).filter FreshRecord.mark).map FreshRecord.key } := by
    unfold beginFrame
    dsimp only
    rw [sourceLine_frame]
  rw [hfresh]
  rfl

/-- The freshness records of `t` are those a FRAME_START made of the records of `s`. -/
theorem agedAs_of_beginFrame {s s1 t : State} (hlayout : s1.layout = s.layout) (hfresh : s1.fresh = s.fresh)
    (ht : t.fresh = (beginFrame s1).1.fresh) : AgedAs s t where
  records := by
    rw [ht, beginFrame_records, hlayout, hfresh]
    exact List.map_congr_left fun r _ => ageRecord_eq _ r
  staleSet := by
    rw [ht]
    exact beginFrame_staleSet s1

/-- Line 0 is sourced with the stale set that FRAME_START publishes. -/
theorem sourcedAs_of_beginFrame {s s1 t : State} (hlayout : s1.layout = s.layout) (halloc : s1.alloc = s.alloc)
    (hpal : s1.pal = s.pal) (harb : s1.arb = s.arb) (hfresh : t.fresh = (beginFrame s1).1.fresh)
    (hscan : t.scan = (beginFrame s1).1.scan) (htarb : t.arb = (beginFrame s1).1.arb) :
    SourcedAs s t.fresh.staleSet 0 t := by
  refine sourcedAs_of_sourceLine
    (s1 := { s1 with
      timing := { s1.timing.takePending with period := .display, line := 0, part := .sync }
      fresh := (beginFrame s1).1.fresh }) hlayout halloc hpal harb ?_ ?_ ?_
  · rw [hfresh]
  · rw [hscan, ← beginFrame_eq_sourceLine]
  · rw [htarb, ← beginFrame_eq_sourceLine]

/-- FRAME_START at its boundary. -/
theorem takeFrameStart_eq (s : State) : takeFrameStart s = deliver (staleTold s) (beginFrame s).1 := by
  simp only [takeFrameStart, beginFrame_posts]

theorem frameStartDue_iff {s : State} :
    frameStartDue s = true ↔ ((s.timing.run = .running ∧ s.timing.part = .display) ∧
      s.timing.line + 1 = s.timing.active.vdl + s.timing.active.vnd) ∧ s.timing.stopPending = false := by
  simp only [frameStartDue, Bool.and_eq_true, atFrameEnd_iff, Bool.not_eq_true']

/-- A record that FRAME_START marks puts its key in the published set. -/
theorem mem_staleSet_of_marked {s : State} {r : FreshRecord} (hr : r ∈ s.fresh.records)
    (hmark : marksNow s.layout.active.bands r = true) : r.key ∈ (beginFrame s).1.fresh.staleSet := by
  have hnot : ¬(r.mark = true ∨ limitOf s.layout.active.bands r.key = 0) := by
    simp only [marksNow, Bool.and_eq_true, Bool.not_eq_true', decide_eq_true_iff] at hmark
    obtain ⟨⟨hm, hl⟩, -⟩ := hmark
    rw [hm]
    simp
    omega
  have haged : ageRecord s.layout.active.bands r = { r with age := r.age + 1, mark := true } := by
    rw [ageRecord, if_neg hnot, hmark]
  rw [beginFrame_staleSet, beginFrame_records]
  refine List.mem_map.2 ⟨_, List.mem_filter.2 ⟨List.mem_map.2 ⟨r, hr, haged⟩, rfl⟩, rfl⟩

/-- Settles O48: the FRAME_START of R113, and the band that it marks. -/
theorem frameStartAgesTheBands : Obligations.FrameStartAgesTheBands := by
  unfold Obligations.FrameStartAgesTheBands
  intro s hrun hpart hline hstop
  have hdue : frameStartDue s = true := frameStartDue_iff.2 ⟨⟨⟨hrun, hpart⟩, hline⟩, hstop⟩
  have hexec : exec .frameStart s = .next (takeFrameStart s) := if_pos hdue
  have hfresh : (takeFrameStart s).fresh = (beginFrame s).1.fresh := by rw [takeFrameStart_eq, deliver_fresh]
  have hscan : (takeFrameStart s).scan = (beginFrame s).1.scan := by rw [takeFrameStart_eq, deliver_scan]
  have harb : (takeFrameStart s).arb = (beginFrame s).1.arb := by rw [takeFrameStart_eq, deliver_arb]
  refine ⟨⟨_, hexec, ?_, agedAs_of_beginFrame rfl rfl hfresh, sourcedAs_of_beginFrame rfl rfl rfl rfl hfresh hscan harb⟩,
    fun k r hr hkey hmark hmin hage => ?_⟩
  · have hnotices : (deliver (staleTold s) (beginFrame s).1).notices = (deliver (staleTold s) s).notices :=
      deliver_notices_congr _ (by rw [beginFrame_frame]) fun q => by rw [beginFrame_frame]
    rw [hfresh, hscan, harb, takeFrameStart_eq, deliver_frame, hnotices, beginFrame_frame, takePending_eq]
  · have hmarks : marksNow s.layout.active.bands r = true := by
      subst hkey
      simp [marksNow, hmark, hmin, hage]
    have hwill : willMark s k = true := List.any_eq_true.2 ⟨r, hr, by simp [hkey, hmarks]⟩
    have hmarked : exec (.bandMarkedStale k) s = .next (takeFrameStart s) := if_pos ⟨hdue, hwill⟩
    refine ⟨hmarked.trans hexec.symm, _, hmarked, ?_⟩
    rw [hfresh, ← hkey]
    exact mem_staleSet_of_marked hr hmarks

end Sys2Proof.Machine
end


section
/-! PROOFS. VOTE, SUP_INHIBIT and SUP_POWER_TIMES: the sequencer's answer to a change of demand (R135 to R137, R139 to R143). -/

namespace Sys2Proof.Machine

/-! ### A change of demand (R135) -/

/-- The loss of demand that makes a stop request (R140). -/
def StopsAtLoss (s : State) (before after : Bool) : Prop :=
  s.power.state = .logicLead ∧ s.power.stopRequested = false ∧ before = true ∧ after = false

/-- What the sequencer makes of a change of vote: the state after, its postings, and whether it makes a start request. -/
structure DemandStep (s : State) (votes : PerPort (Option Vote)) (before after : Bool) (x : PowerStep) : Prop where
  frame : x.state = { s with power := powerAfterVote s votes before after, timing := x.state.timing }
  stops : StopsAtLoss s before after → x.state.timing = (stopRequest s).timing
  timing : ¬StopsAtLoss s before after → x.state.timing = s.timing
  posts : x.posts =
    if (powerAfterVote s votes before after).state = s.power.state then []
    else powerToEach (powerAfterVote s votes before after).state
  start : x.start = true ↔ s.power.state = .dark ∧ before = false ∧ after = true
  lead : x.start = true → (powerAfterVote s votes before after).state = .logicLead

theorem stopRequest_timing (s : State) (p : PowerSequencer) :
    (stopRequest { s with power := p }).timing = (stopRequest s).timing := by
  unfold stopRequest
  cases s.timing.run <;> rfl

/-- The tables of R139, R140, R142 and R143. -/
theorem demandStep_demandChange (before : Bool) (s : State) (votes : PerPort (Option Vote)) :
    DemandStep s votes before (demand { s with power := { s.power with votes := votes } })
      (demandChange before { s with power := { s.power with votes := votes } }) := by
  cases hafter : demand { s with power := { s.power with votes := votes } } <;> cases before
  case false.false | true.true =>
    simp only [demandChange, hafter, if_true]
    constructor <;> simp [powerAfterVote, PowerStep.none, StopsAtLoss]
  case true.false =>
    simp only [demandChange, hafter, Bool.false_eq_true, if_false, if_true, demandAppears]
    cases hstate : s.power.state with
    | dark => constructor <;> simp [powerAfterVote, hstate, enterLead, enterPower, StopsAtLoss, powerPostings, powerToEach]
    | logicLead | lit | logicHeld => constructor <;> simp [powerAfterVote, hstate, PowerStep.none, StopsAtLoss]
    | logicTail =>
      cases hstop : s.power.stopRequested with
      | false =>
        simp only [Bool.false_eq_true, if_false]
        constructor <;>
          simp [powerAfterVote, hstate, hstop, enterLead, enterPower, StopsAtLoss, powerPostings, powerToEach]
      | true =>
        simp only [if_true]
        constructor <;> simp [powerAfterVote, hstate, hstop, PowerStep.none, StopsAtLoss]
  case false.true =>
    simp only [demandChange, hafter, Bool.true_eq_false, Bool.false_eq_true, if_false, demandLost]
    cases hstate : s.power.state with
    | dark | lit | logicTail => constructor <;> simp [powerAfterVote, hstate, PowerStep.none, StopsAtLoss]
    | logicHeld =>
      constructor <;> simp [powerAfterVote, hstate, enterTail, enterPower, StopsAtLoss, powerPostings, powerToEach]
    | logicLead =>
      cases hstop : s.power.stopRequested with
      | false =>
        simp only [Bool.false_eq_true, if_false, requestStop, PowerStep.none]
        refine ⟨?_, fun _ => stopRequest_timing s _, fun h => absurd ⟨hstate, hstop, rfl, rfl⟩ h, ?_, by simp [hstate], by simp⟩
        · rw [stopRequest_frame]
          simp [powerAfterVote, hstate, hstop]
        · simp [powerAfterVote, hstate, hstop]
      | true =>
        simp only [if_true]
        constructor <;> simp [powerAfterVote, hstate, hstop, PowerStep.none, StopsAtLoss]

/-! ### The end of an event of the sequencer (R112, R145) -/

/-- An event of the sequencer that makes no start request, or makes one that a running generator does not act on. -/
theorem finishPower_quiet {x : PowerStep} (h : x.start = false ∨ x.state.timing.run = .running) (ahead : List Posting) :
    finishPower ahead x = deliverAny x.posts ahead [] x.state := by
  cases hstart : x.start with
  | false => simp only [finishPower, hstart, Bool.false_eq_true, if_false]
  | true =>
    have hrun := h.resolve_left (by simp [hstart])
    simp only [finishPower, hstart, if_true, startRequest_running hrun, List.append_nil]

/-- The state from which a stopped generator takes FRAME_START (R112). -/
def startedFrom (s : State) : State := { s with timing := { s.timing.takePending with run := .running } }

/-- A start request in STOPPED takes FRAME_START at once (R112). -/
theorem finishPower_starts {x : PowerStep} (hstart : x.start = true) (hrun : x.state.timing.run = .stopped)
    (ahead : List Posting) :
    finishPower ahead x =
      deliverAny x.posts (ahead ++ staleTold (startedFrom x.state)) [] (beginFrame (startedFrom x.state)).1 := by
  simp only [finishPower, hstart, if_true, startRequest, hrun, ← beginFrame_posts]
  rfl

/-- The generator after a start request in STOPPED (R108, R112). -/
theorem beginFrame_startedFrom_timing (s : State) :
    (beginFrame (startedFrom s)).1.timing =
      { run := .running, period := .display, line := 0, part := .sync, stopPending := s.timing.stopPending,
        active := s.timing.pending.getD s.timing.active, pending := none, frameNumber := s.timing.frameNumber } := by
  rw [beginFrame_frame]
  simp only [startedFrom, takePending_eq, Option.getD_none]

/-! ### A change of vote (R135) -/

/-- The change of demand at which a stopped generator starts (R112, R139). -/
def StartsAtDemand (s : State) (before after : Bool) : Prop :=
  s.power.state = .dark ∧ s.timing.run = .stopped ∧ before = false ∧ after = true

/-- What a change of vote makes of the part. -/
structure VoteChanged (s : State) (votes : PerPort (Option Vote)) (before after : Bool) (t : State) : Prop where
  frame : t =
    { s with
      power := powerAfterVote s votes before after, timing := t.timing, fresh := t.fresh, scan := t.scan
      arb := { s.arb with lineFetch := t.arb.lineFetch }, notices := t.notices, draws := t.draws }
  starts : StartsAtDemand s before after →
    t.timing =
        { run := .running, period := .display, line := 0, part := .sync, stopPending := s.timing.stopPending,
          active := s.timing.pending.getD s.timing.active, pending := none, frameNumber := s.timing.frameNumber } ∧
      AgedAs s t ∧ SourcedAs s t.fresh.staleSet 0 t ∧ ToldMerged s t [powerToEach .logicLead, staleTold s]
  stops : StopsAtLoss s before after → t.timing = (stopRequest s).timing
  timing : ¬StartsAtDemand s before after → ¬StopsAtLoss s before after → t.timing = s.timing
  quiet : ¬StartsAtDemand s before after → t.fresh = s.fresh ∧ t.scan = s.scan ∧ t.arb = s.arb ∧
    (t.power.state ≠ s.power.state → PowerTold s t t.power.state) ∧
    (t.power.state = s.power.state → t.notices = s.notices)

theorem not_stops_of_starts {s : State} {before after : Bool} (h : StartsAtDemand s before after) :
    ¬StopsAtLoss s before after := fun hstop => by
  obtain ⟨-, -, hbefore, -⟩ := h
  obtain ⟨-, -, hbefore', -⟩ := hstop
  rw [hbefore] at hbefore'
  cases hbefore'

/-- A step that makes no start request, or one that a running generator does not act on, changes the vote. -/
theorem voteChanged_quiet {s : State} {votes : PerPort (Option Vote)} {before after : Bool} {x : PowerStep}
    (hx : DemandStep s votes before after x) (hnot : ¬StartsAtDemand s before after)
    (hquiet : x.start = false ∨ x.state.timing.run = .running) :
    VoteChanged s votes before after (finishPower [] x) := by
  have hstate := hx.frame
  have htold : ToldMerged s (finishPower [] x) [x.posts, [], []] := by
    refine toldMerged_of_deliverAny (u := x.state) ?_ (fun q => ?_) (by rw [finishPower_quiet hquiet])
    · rw [hstate]
    · rw [hstate]
  have hpower : (finishPower [] x).power = powerAfterVote s votes before after := by
    rw [finishPower_quiet hquiet, deliverAny_power, hstate]
  have htiming : (finishPower [] x).timing = x.state.timing := by rw [finishPower_quiet hquiet, deliverAny_timing]
  refine ⟨?_, fun h => absurd h hnot, fun h => ?_, fun _ h => ?_, fun _ => ⟨?_, ?_, ?_, fun h => ?_, fun h => ?_⟩⟩
  · rw [finishPower_quiet hquiet, deliverAny_frame, hstate]
  · rw [htiming, hx.stops h]
  · rw [htiming, hx.timing h]
  · rw [finishPower_quiet hquiet, deliverAny_fresh, hstate]
  · rw [finishPower_quiet hquiet, deliverAny_scan, hstate]
  · rw [finishPower_quiet hquiet, deliverAny_arb, hstate]
  · rw [hpower] at h ⊢
    rw [hx.posts, if_neg h] at htold
    exact powerTold_of_merged htold
  · rw [hpower] at h
    rw [hx.posts, if_pos h] at htold
    exact notices_eq_of_merged htold

/-- A step with a start request at a stopped generator. -/
theorem voteChanged_starts {s : State} {votes : PerPort (Option Vote)} {before after : Bool} {x : PowerStep}
    (hx : DemandStep s votes before after x) (hstarts : StartsAtDemand s before after) :
    VoteChanged s votes before after (finishPower [] x) := by
  obtain ⟨hdark, hrun, hbefore, hafter⟩ := hstarts
  have hstart : x.start = true := hx.start.2 ⟨hdark, hbefore, hafter⟩
  have htiming : x.state.timing = s.timing := hx.timing (not_stops_of_starts ⟨hdark, hrun, hbefore, hafter⟩)
  have hlead := hx.lead hstart
  have hstate : x.state = { s with power := powerAfterVote s votes before after } := by
    rw [hx.frame, htiming]
  have hfinish := finishPower_starts hstart (by rw [htiming]; exact hrun) []
  have hposts : x.posts = powerToEach .logicLead := by
    rw [hx.posts, hlead, if_neg (by simp [hdark])]
  have htold : staleTold (startedFrom x.state) = staleTold s := by rw [hstate]; rfl
  have htimes : (finishPower [] x).timing = (beginFrame (startedFrom x.state)).1.timing := by rw [hfinish, deliverAny_timing]
  refine ⟨?_, fun _ => ⟨?_, ?_, ?_, ?_⟩, fun h => absurd h (not_stops_of_starts ⟨hdark, hrun, hbefore, hafter⟩),
    fun h => absurd ⟨hdark, hrun, hbefore, hafter⟩ h, fun h => absurd ⟨hdark, hrun, hbefore, hafter⟩ h⟩
  · rw [hfinish, deliverAny_frame, beginFrame_frame, hstate]
    rfl
  · rw [htimes, beginFrame_startedFrom_timing, htiming]
  · refine agedAs_of_beginFrame (s1 := startedFrom x.state) ?_ ?_ (by rw [hfinish, deliverAny_fresh]) <;> rw [hstate] <;> rfl
  · refine sourcedAs_of_beginFrame (s1 := startedFrom x.state) ?_ ?_ ?_ ?_ (by rw [hfinish, deliverAny_fresh])
      (by rw [hfinish, deliverAny_scan]) (by rw [hfinish, deliverAny_arb]) <;> rw [hstate] <;> rfl
  · have hmerged : ToldMerged s (finishPower [] x) [powerToEach .logicLead, staleTold s, []] := by
      refine toldMerged_of_deliverAny (u := (beginFrame (startedFrom x.state)).1) ?_ (fun q => ?_) ?_
      · rw [beginFrame_frame, hstate]
        rfl
      · rw [beginFrame_frame, hstate]
        rfl
      · rw [hfinish, hposts, htold, List.nil_append]
    exact hmerged.rename (by simp) (by simp)

theorem changeVote_voteChanged (p : Port) (v : Option Vote) (s : State) :
    VoteChanged s (s.power.votes.set p v) (demand s)
      (demand { s with power := { s.power with votes := s.power.votes.set p v } }) (changeVote p v s) := by
  have hx := demandStep_demandChange (demand s) s (s.power.votes.set p v)
  by_cases hstarts : StartsAtDemand s (demand s) (demand { s with power := { s.power with votes := s.power.votes.set p v } })
  · exact voteChanged_starts hx hstarts
  · refine voteChanged_quiet hx hstarts ?_
    refine or_iff_not_imp_left.2 fun hstart => ?_
    obtain ⟨hdark, hbefore, hafter⟩ := hx.start.1 (Bool.eq_true_of_not_eq_false hstart)
    have hstops : ¬StopsAtLoss s (demand s) (demand { s with power := { s.power with votes := s.power.votes.set p v } }) :=
      fun h => by
        have := h.1
        rw [hdark] at this
        cases this
    cases hrun : s.timing.run with
    | running => exact (congrArg TimingGenerator.run (hx.timing hstops)).trans hrun
    | stopped => exact absurd ⟨hdark, hrun, hbefore, hafter⟩ hstarts

theorem AgedAs.congr {s t t' : State} (h : AgedAs s t) (ht : t'.fresh = t.fresh) : AgedAs s t' :=
  ⟨by rw [ht, h.records], by rw [ht, h.staleSet]⟩

theorem SourcedAs.congr {s t t' : State} {stale : List BandKey} {n : Nat} (h : SourcedAs s stale n t)
    (hscan : t'.scan = t.scan) (harb : t'.arb = t.arb) : SourcedAs s stale n t' := by
  obtain ⟨h1, h2, h3, h4, h5, h6⟩ := h
  exact ⟨by rwa [hscan], by rwa [hscan], by rwa [hscan], by rwa [hscan, harb], by rwa [hscan, harb], by rwa [harb]⟩

theorem powerAfterVote_votes (s : State) (votes : PerPort (Option Vote)) (before after : Bool) :
    (powerAfterVote s votes before after).votes = votes := by
  unfold powerAfterVote
  dsimp only
  split
  · rfl
  · split
    · split <;> (try split) <;> rfl
    · split <;> (try split) <;> rfl

theorem demand_congr {s t : State} (h : s.power.votes = t.power.votes) : demand s = demand t := by
  simp only [demand, h]

/-- The reply depends on the link and on the notices alone. -/
theorem replied_links_congr {s t : State} {p : Port} {st : Status} {payload : List Byte} (hl : t.links = s.links) :
    (Replied t p st payload).links = (Replied { s with notices := t.notices } p st payload).links := by
  simp only [Replied, hl]

theorem voteOf_eq {v : Byte} (h : v.toNat ≤ 1) :
    voteOf v.toNat = some (if v = 1#8 then .on else .off) ∧
      Vote.code (if v = 1#8 then .on else .off) = v := by
  obtain hv | hv : v.toNat = 0 ∨ v.toNat = 1 := by omega
  · obtain rfl : v = 0#8 := (byte_eq_zero_iff v).2 hv
    exact ⟨rfl, rfl⟩
  · obtain rfl : v = 1#8 := (byte_eq_one_iff v).2 hv
    exact ⟨rfl, rfl⟩

/-- Settles O40: the change of vote, then the reply that reports it. -/
theorem voteActsOnDemand : Obligations.VoteActsOnDemand := by
  unfold Obligations.VoteActsOnDemand
  intro s p v hadm votes before after starts stops
  rw [exec_of_admitted (vote p) rfl hadm rfl]
  refine ⟨fun hbig => ?_, fun hle => ?_⟩
  · have hnone : voteOf (num8 [v] 0) = none := by
      change voteOf v.toNat = none
      unfold voteOf
      split <;> first | omega | rfl
    simp only [vote, hnone, fillReply_eq_replied]
  · obtain ⟨hvote, hcode⟩ := voteOf_eq hle
    have hsome : voteOf (num8 [v] 0) = some (if v = 1#8 then .on else .off) := hvote
    have hc : VoteChanged s votes before after (changeVote p (some (if v = 1#8 then .on else .off)) s) :=
      changeVote_voteChanged p _ s
    obtain ⟨u, hu⟩ : ∃ u, changeVote p (some (if v = 1#8 then .on else .off)) s = u := ⟨_, rfl⟩
    rw [hu] at hc
    have hframe := hc.frame
    have hpower : u.power = powerAfterVote s votes before after := by rw [hframe]
    have hlinks : u.links = s.links := by rw [hframe]
    have hdemand : demand u = after := demand_congr (by rw [hpower, powerAfterVote_votes])
    have hflag : ∀ b : Bool, flagCode b = if b then 1#8 else 0#8 := fun _ => rfl
    simp only [vote, hsome, hu, hcode, hdemand, fillReply_eq_replied, hflag]
    have hreply := replied_links_congr (s := s) (t := u) (p := p) (st := .ok)
      (payload := [v, if after then 1#8 else 0#8, u.power.state.code]) hlinks
    refine ⟨_, rfl, hpower, hreply, ?_, ?_, ?_, ?_, ?_, ?_, fun h => ?starts, fun hstops hrun => ?stops,
      hc.timing, hc.quiet⟩
    case starts =>
      obtain ⟨htiming, haged, hsourced, htold⟩ := hc.starts h
      exact ⟨htiming, haged.congr rfl, hsourced.congr rfl rfl, htold⟩
    case stops =>
      refine (hc.stops hstops).trans ?_
      simp only [stopRequest, hrun]
    all_goals
      simp only [Replied]
      rw [hframe]

/-! ### SUP_INHIBIT and SUP_POWER_TIMES (R136, R137, R142) -/

theorem put8_toNat (b : Byte) : put8 b.toNat = [b] := by simp [put8]

/-- Settles O41: the inhibit as carried, with its one transition, and the two counts. -/
theorem inhibitAndPowerTimes : Obligations.InhibitAndPowerTimes := by
  unfold Obligations.InhibitAndPowerTimes
  refine fun s p => ⟨fun v hadm => ?inhibit, fun l t hadm => ?times⟩
  case inhibit =>
    intro again
    rw [exec_of_admitted (supInhibit p) rfl hadm rfl]
    have hnum : num8 [v] 0 = v.toNat := rfl
    have hagain : (s.power.inhibit = true ∧ decide (v = 1#8) = false ∧ s.power.state = .logicHeld ∧ demand s = true) ∧
        v.toNat ≤ 1 ↔ again := by
      have hv : v = 0#8 ↔ decide (v = 1#8) = false ∧ v.toNat ≤ 1 := by
        rw [decide_eq_false_iff_not, byte_eq_one_iff, byte_eq_zero_iff]
        omega
      simp only [again, hv]
      tauto
    have hcarried : decide (num8 [v] 0 = 1) = decide (v = 1#8) := decide_eq_decide.2 (byte_eq_one_iff v).symm
    refine ⟨fun hbig => congrArg Host.Outcome.next ((if_pos hbig).trans (fillReply_eq_replied ..)),
      fun hle hnot => congrArg Host.Outcome.next ((if_neg (Nat.not_lt.2 hle)).trans ?_), fun hyes => ?_⟩
    · have hc : ¬(s.power.inhibit = true ∧ decide (v = 1#8) = false ∧ s.power.state = .logicHeld ∧ demand s = true) :=
        fun h => hnot (hagain.1 ⟨h, hle⟩)
      have hchange : changeInhibit (decide (v = 1#8)) s =
          { s with power := { s.power with inhibit := decide (v = 1#8) } } := if_neg hc
      have hbyte : flagCode (decide (v = 1#8)) = v := by
        rw [← hcarried]
        exact flagCode_of_le_one rfl hle
      rw [hcarried, hchange, fillReply_eq_replied]
      simp only [hbyte]
    · obtain ⟨hc, hle⟩ := hagain.2 hyes
      have hzero : v = 0#8 := hyes.2.1
      have hquiet : (enterLead { s with power := { s.power with inhibit := decide (v = 1#8) } }).start = false := rfl
      have hchange : changeInhibit (decide (v = 1#8)) s =
          deliverAny (powerToEach .logicLead) [] []
            { s with
              power := { s.power with inhibit := false, state := .logicLead, frameCount := 0, target := s.power.lead } } := by
        refine (if_pos hc).trans ((finishPower_quiet (.inl hquiet) []).trans ?_)
        rw [hc.2.1]
        rfl
      obtain ⟨u, hu⟩ : ∃ u, deliverAny (powerToEach .logicLead) [] []
            { s with
              power := { s.power with inhibit := false, state := .logicLead, frameCount := 0, target := s.power.lead } } = u :=
        ⟨_, rfl⟩
      have hframe : u =
          { s with
            power := { s.power with inhibit := false, state := .logicLead, frameCount := 0, target := s.power.lead }
            notices := u.notices, draws := u.draws } := by
        rw [← hu, deliverAny_frame]
      have hpower : u.power =
          { s.power with inhibit := false, state := .logicLead, frameCount := 0, target := s.power.lead } := by rw [hframe]
      refine ⟨Replied u p .ok [0#8, 1#8], ?_, ?_, ?_⟩
      · refine congrArg Host.Outcome.next ((if_neg (Nat.not_lt.2 hle)).trans ?_)
        rw [hcarried, hchange, hu, fillReply_eq_replied, hpower]
        rfl
      · have hn : (Replied u p .ok [0#8, 1#8]).notices = u.notices := rfl
        have hd : (Replied u p .ok [0#8, 1#8]).draws = u.draws := rfl
        rw [hn, hd]
        exact congrArg (fun x => Replied x p .ok [0#8, 1#8]) hframe
      · have hmerged : ToldMerged s u [powerToEach .logicLead, [], []] :=
          toldMerged_of_deliverAny (u := { s with
            power := { s.power with inhibit := false, state := .logicLead, frameCount := 0, target := s.power.lead } })
            rfl (fun _ => Iff.rfl) (by rw [hu])
        exact powerTold_of_merged hmerged
  case times =>
    rw [exec_of_admitted (supPowerTimes p) rfl hadm rfl]
    have htail : num8 [l, t] 1 = 0 ↔ t = 0#8 := (byte_eq_zero_iff t).symm
    refine ⟨fun hzero => ?_, fun hzero => ?_⟩
    · exact congrArg Host.Outcome.next ((if_pos (htail.2 hzero)).trans (fillReply_eq_replied ..))
    · refine congrArg Host.Outcome.next ((if_neg (mt htail.1 hzero)).trans ?_)
      have hpayload : put8 (num8 [l, t] 0) ++ put8 (num8 [l, t] 1) = [l, t] := by
        rw [num8_cons_zero, num8_cons_succ, num8_cons_zero, put8_toNat, put8_toNat]
        rfl
      rw [hpayload, fillReply_eq_replied]
      rfl

end Sys2Proof.Machine
end


section
/-! PROOFS. The tentative copy and its edits (R31 to R34), and validation (R35 to R39). -/

namespace Sys2Proof.Machine

/-! ### Band-list order (R3, R34) -/

theorem before_iff {a b : Band} :
    a.before b = true ↔ a.first < b.first ∨ a.first = b.first ∧ (a.key.owner.toNat < b.key.owner.toNat ∨
      a.key.owner.toNat = b.key.owner.toNat ∧ a.key.number.val < b.key.number.val) := by
  have howner : a.key.owner = b.key.owner ↔ a.key.owner.toNat = b.key.owner.toNat :=
    ⟨fun h => by rw [h], Port.toNat_injective⟩
  simp only [Band.before, Bool.or_eq_true, Bool.and_eq_true, decide_eq_true_iff, howner]

theorem before_trans {a b c : Band} (hab : a.before b = true) (hbc : b.before c = true) : a.before c = true := by
  rw [before_iff] at hab hbc ⊢
  omega

theorem before_of_not_before {a b : Band} (hkey : b.key ≠ a.key) (h : ¬a.before b = true) : b.before a = true := by
  rw [before_iff] at h ⊢
  have hne : ¬(a.key.owner.toNat = b.key.owner.toNat ∧ a.key.number.val = b.key.number.val) := fun ⟨ho, hn⟩ => by
    refine hkey ?_
    have h1 : b.key.owner = a.key.owner := Port.toNat_injective ho.symm
    have h2 : b.key.number = a.key.number := Fin.ext hn.symm
    calc b.key = ⟨b.key.owner, b.key.number⟩ := rfl
      _ = a.key := by rw [h1, h2]
  omega

/-- A band placed in an ordered list whose other keys differ keeps the order (R34). -/
theorem insertBand_sorted {b : Band} : ∀ {bs : List Band}, bs.Pairwise (fun x y => x.before y = true) →
    (∀ x ∈ bs, x.key ≠ b.key) → (insertBand b bs).Pairwise fun x y => x.before y = true
  | [], _, _ => List.pairwise_singleton _ _
  | x :: rest, hsorted, hkeys => by
    obtain ⟨hx, hrest⟩ := List.pairwise_cons.1 hsorted
    unfold insertBand
    split
    · rename_i hbefore
      refine List.pairwise_cons.2 ⟨fun y hy => ?_, hsorted⟩
      obtain rfl | hy := List.mem_cons.1 hy
      · exact hbefore
      · exact before_trans hbefore (hx y hy)
    · rename_i hbefore
      refine List.pairwise_cons.2 ⟨fun y hy => ?_,
        insertBand_sorted hrest fun y hy => hkeys y (List.mem_cons_of_mem _ hy)⟩
      obtain rfl | hy := mem_insertBand.1 hy
      · exact before_of_not_before (hkeys x List.mem_cons_self) hbefore
      · exact hx y hy

/-! ### Keys -/

theorem mem_addKey {k j : BandKey} {ks : List BandKey} : j ∈ addKey k ks ↔ j = k ∨ j ∈ ks := by
  unfold addKey
  split
  · exact ⟨.inr, fun h => h.elim (fun h => h ▸ ‹k ∈ ks›) id⟩
  · rw [List.mem_append, List.mem_singleton, or_comm]

theorem mem_dropKey {k j : BandKey} {ks : List BandKey} : j ∈ dropKey k ks ↔ j ∈ ks ∧ j ≠ k := by
  simp [dropKey]

theorem findBand_isSome_iff {k : BandKey} {bs : List Band} : (∃ b ∈ bs, b.key = k) ↔ ∃ b, findBand k bs = some b := by
  rw [← Option.isSome_iff_exists, findBand, List.find?_isSome]
  simp

/-- Where keys differ, the band of a key is the one that is found. -/
theorem findBand_of_mem {k : BandKey} {bs : List Band} {b : Band} (hkeys : (bs.map Band.key).Nodup) (hb : b ∈ bs)
    (hk : b.key = k) : findBand k bs = some b := by
  obtain ⟨b', hfind⟩ := findBand_isSome_iff.1 ⟨b, hb, hk⟩
  obtain ⟨hb', hk'⟩ := findBand_some hfind
  rw [hfind, List.inj_on_of_nodup_map hkeys hb' hb (hk'.trans hk.symm)]

/-! ### The edits (R32, R33) -/

theorem changeSurface_missing {t : Tentative} {k : BandKey} (f : Handle → Nat → Nat → BandPart)
    (h : ∀ b ∈ t.copy.bands, b.key ≠ k) : t.changeSurface k f = .error k := by
  simp only [Tentative.changeSurface, findBand_eq_none.2 h]

theorem changeSurface_fill {t : Tentative} {k : BandKey} {b : Band} {c : Colour} (f : Handle → Nat → Nat → BandPart)
    (h : findBand k t.copy.bands = some b) (hpart : b.part = .fill c) : t.changeSurface k f = .error k := by
  simp only [Tentative.changeSurface, h, hpart]

theorem changeSurface_surface {t : Tentative} {k : BandKey} {b : Band} {h : Handle} {x y : Nat}
    (f : Handle → Nat → Nat → BandPart) (hfind : findBand k t.copy.bands = some b) (hpart : b.part = .surface h x y) :
    t.changeSurface k f =
      .ok { t.withBands (setBandPart k (f h x y) t.copy.bands) with changed := addKey k t.changed } := by
  simp only [Tentative.changeSurface, hfind, hpart]

/-- Bands evicted one after the other: those left, and the two working sets (R33). -/
theorem foldl_evict (ks : List BandKey) : ∀ t : Tentative,
    (ks.foldl Tentative.evict t).copy = { t.copy with bands := t.copy.bands.filter fun b => decide (b.key ∉ ks) } ∧
      (∀ k, k ∈ (ks.foldl Tentative.evict t).evicted ↔ k ∈ t.evicted ∨ k ∈ ks) ∧
      ∀ k, k ∈ (ks.foldl Tentative.evict t).changed ↔ k ∈ t.changed ∧ k ∉ ks := by
  induction ks with
  | nil => simp
  | cons k0 ks ih =>
    intro t
    obtain ⟨hcopy, hevicted, hchanged⟩ := ih (t.evict k0)
    rw [List.foldl_cons]
    refine ⟨?_, fun k => ?_, fun k => ?_⟩
    · have hbands : (removeBand k0 t.copy.bands).filter (fun b => decide (b.key ∉ ks)) =
          t.copy.bands.filter fun b => decide (b.key ∉ k0 :: ks) := by
        rw [removeBand, List.filter_filter]
        refine List.filter_congr fun b _ => ?_
        rw [← Bool.decide_and]
        exact decide_eq_decide.2 (by rw [List.mem_cons, not_or, and_comm])
      rw [hcopy]
      simp only [Tentative.evict, Tentative.withBands, hbands]
    · rw [hevicted]
      simp only [Tentative.evict, mem_addKey, List.mem_cons]
      tauto
    · rw [hchanged]
      simp only [Tentative.evict, mem_dropKey, List.mem_cons]
      tauto

theorem within_iff {b : Band} {r : Region} :
    b.within r = true ↔ r.top ≤ b.first ∧ b.first + b.count ≤ r.bottom + 1 := by
  simp only [Band.within, Bool.and_eq_true, decide_eq_true_iff]

/-- Settles O34: the tables of R32 and R33, one edit kind after the other. -/
theorem editsActOnTheCopy : Obligations.EditsActOnTheCopy := by
  unfold Obligations.EditsActOnTheCopy
  intro p t bands sorted without moved
  refine ⟨fun b => ⟨_, rfl, fun x => ?_, fun hsorted => ?_, rfl, fun k => mem_addKey, rfl⟩, fun n hnone => ?_, fun n hsome => ?_,
    fun n b hkeys hb hk => ⟨fun c hpart => ?_, fun h vx vy hpart => ⟨fun x y => ?_, fun g => ?_⟩⟩, fun tm => rfl, fun c => rfl,
    fun c => rfl, fun q r hkeys => ?_, fun k hnone => ?_, fun k hsome => ?_⟩
  · exact mem_insertBand.trans (or_congr_right mem_removeBand)
  · exact insertBand_sorted (hsorted.sublist List.filter_sublist) fun x hx => (mem_removeBand.1 hx).2
  · refine ⟨?_, fun x y => changeSurface_missing _ hnone, fun h => changeSurface_missing _ hnone⟩
    have hfind : findBand ⟨p, n⟩ t.copy.bands = none := findBand_eq_none.2 hnone
    simp only [applyEdit, hfind]
  · obtain ⟨b, hb⟩ := findBand_isSome_iff.1 hsome
    have hfind : findBand ⟨p, n⟩ t.copy.bands = some b := hb
    simp only [applyEdit, hfind]
    rfl
  · exact ⟨fun x y => changeSurface_fill _ (findBand_of_mem hkeys hb hk) hpart,
      fun h => changeSurface_fill _ (findBand_of_mem hkeys hb hk) hpart⟩
  · exact ⟨_, changeSurface_surface _ (findBand_of_mem hkeys hb hk) hpart, rfl, rfl, fun k => mem_addKey⟩
  · exact ⟨_, changeSurface_surface _ (findBand_of_mem hkeys hb hk) hpart, rfl, rfl, fun k => mem_addKey⟩
  · intro out
    obtain ⟨ks, hks⟩ : ∃ ks, ((bands.filter fun b => decide (b.key.owner = q) && !b.within r).map Band.key) = ks := ⟨_, rfl⟩
    have hmem : ∀ k, k ∈ ks ↔ ∃ b ∈ bands, out b ∧ b.key = k := fun k => by
      have hout : ∀ b : Band, (decide (b.key.owner = q) && !b.within r) = true ↔ out b := fun b => by
        rw [Bool.and_eq_true, decide_eq_true_iff, Bool.not_eq_true', ← Bool.not_eq_true, within_iff]
      simp only [← hks, List.mem_map, List.mem_filter, hout, and_assoc]
    have hkept : ∀ b ∈ bands, b.key ∉ ks ↔ ¬out b := fun b hb => by
      refine not_congr ((hmem _).trans ⟨fun ⟨b', hb', hout, hkey⟩ => ?_, fun hout => ⟨b, hb, hout, rfl⟩⟩)
      exact List.inj_on_of_nodup_map hkeys hb' hb hkey ▸ hout
    obtain ⟨hcopy, hevicted, hchanged⟩ :=
      foldl_evict ks { t with copy := { t.copy with regions := t.copy.regions.set q r } }
    refine ⟨ks.foldl Tentative.evict { t with copy := { t.copy with regions := t.copy.regions.set q r } }, by rw [← hks]; rfl,
       ?_, ?_, fun b hb => ?_, fun k => ?_, fun k => ?_⟩
    · rw [hcopy]
    · rw [hcopy]
      exact List.filter_sublist
    · rw [hcopy, ← hkept b hb]
      simp only [List.mem_filter, decide_eq_true_iff]
      exact and_iff_right hb
    · rw [hevicted, hmem]
    · rw [hchanged, hmem]
  · have hfind : findBand k t.copy.bands = none := findBand_eq_none.2 hnone
    simp only [applyEdit, hfind]
  · obtain ⟨b, hb⟩ := findBand_isSome_iff.1 hsome
    have hfind : findBand k t.copy.bands = some b := hb
    refine ⟨t.evict k, ?_, rfl, fun j => mem_addKey, fun j => mem_dropKey⟩
    simp only [applyEdit, hfind]

/-! ### One band's checks (R35 to R39) -/

theorem grantCovers_iff {g : Option Grant} {d : Depth} :
    ¬grantCovers g d = true ↔ d ≠ .d16 ∧ ∀ x, g = some x → x.size < 2 ^ d.bits := by
  cases d <;> cases g <;> simp [grantCovers]

/-- Two bands of at least one line share one exactly when each begins before the other ends (R35). -/
theorem shares_iff {b c : Band} (hb : 1 ≤ b.count) (hc : 1 ≤ c.count) :
    b.shares c = true ↔ ∃ n, b.first ≤ n ∧ n < b.first + b.count ∧ c.first ≤ n ∧ n < c.first + c.count := by
  simp only [Band.shares, Bool.and_eq_true, decide_eq_true_iff]
  exact ⟨fun h => ⟨max b.first c.first, by omega⟩, fun ⟨n, h⟩ => by omega⟩

theorem liveSurface_of_namesLive {s : State} {h : Handle} (hl : NamesLive s h) :
    liveSurface s.alloc.table h = some (s.alloc.table.get h.index) := if_pos hl

theorem liveSurface_of_not_namesLive {s : State} {h : Handle} (hl : ¬NamesLive s h) : liveSurface s.alloc.table h = none :=
  if_neg hl

/-- A check is the first that fails: it fails, and no check of a lower code does. -/
def FirstFails (fails : Reason → Prop) : Option Reason → Prop
  | some r => fails r ∧ ∀ r', r'.code < r.code → ¬fails r'
  | none => ∀ r, ¬fails r

theorem Reason.code_injective {r r' : Reason} (h : r.code = r'.code) : r = r' := by
  cases r <;> cases r' <;> first | rfl | (revert h; decide)

/-- What a check finds first is decided by what fails. -/
theorem FirstFails.eq_some_iff {fails : Reason → Prop} {o : Option Reason} (h : FirstFails fails o) {r : Reason} :
    o = some r ↔ fails r ∧ ∀ r', r'.code < r.code → ¬fails r' := by
  refine ⟨fun ho => by rwa [ho] at h, fun ⟨hr, hlow⟩ => ?_⟩
  cases o with
  | none => exact absurd hr (h r)
  | some r0 =>
    obtain ⟨hr0, hlow0⟩ := h
    have h1 : ¬r0.code < r.code := fun hlt => hlow r0 hlt hr0
    have h2 : ¬r.code < r0.code := fun hlt => hlow0 r hlt hr
    exact congrArg some (Reason.code_injective (BitVec.le_antisymm (BitVec.not_lt.1 h2) (BitVec.not_lt.1 h1)))

theorem FirstFails.eq_none_iff {fails : Reason → Prop} {o : Option Reason} (h : FirstFails fails o) :
    o = none ↔ ∀ r, ¬fails r := by
  refine ⟨fun ho => by rwa [ho] at h, fun hnone => ?_⟩
  cases o with
  | none => rfl
  | some r => exact absurd h.1 (hnone r)

/-- Checks 3 to 5 of R35, one after the other. -/
theorem placeFault_cases (s : State) (l : Layout) {b : Band} {later : List Band} (hb : 1 ≤ b.count)
    (hlater : ∀ c ∈ later, 1 ≤ c.count) :
    (placeFault l b later = some .panelBounds ∧ FailsCheck s l b later .panelBounds) ∨
    (¬FailsCheck s l b later .panelBounds ∧
      ((placeFault l b later = some .outOfRegion ∧ FailsCheck s l b later .outOfRegion) ∨
      (¬FailsCheck s l b later .outOfRegion ∧
        ((placeFault l b later = some .overlap ∧ FailsCheck s l b later .overlap) ∨
        (placeFault l b later = none ∧ ¬FailsCheck s l b later .overlap))))) := by
  have hoverlap : later.any b.shares = true ↔ FailsCheck s l b later .overlap := by
    rw [List.any_eq_true]
    exact exists_congr fun c => and_congr_right fun hc => shares_iff hb (hlater c hc)
  have hregion : ¬b.within (l.regions.get b.key.owner) = true ↔ FailsCheck s l b later .outOfRegion := by
    rw [within_iff]
    rfl
  unfold placeFault
  by_cases h3 : FailsCheck s l b later .panelBounds
  · exact .inl ⟨if_pos h3, h3⟩
  · refine .inr ⟨h3, ?_⟩
    have h3' : ¬l.timing.vdl < b.first + b.count := h3
    rw [if_neg h3']
    by_cases h4 : FailsCheck s l b later .outOfRegion
    · exact .inl ⟨if_pos (hregion.2 h4), h4⟩
    · refine .inr ⟨h4, ?_⟩
      rw [if_neg (mt hregion.1 h4)]
      by_cases h5 : FailsCheck s l b later .overlap
      · exact .inl ⟨if_pos (hoverlap.2 h5), h5⟩
      · exact .inr ⟨if_neg (mt hoverlap.1 h5), h5⟩

/-- What the surface part of a band is asked for. -/
theorem exists_surfacePart_iff {b : Band} {h : Handle} {x y : Nat} (hpart : b.part = .surface h x y)
    {P : Handle → Nat → Nat → Prop} : (∃ h' x' y', b.part = .surface h' x' y' ∧ P h' x' y') ↔ P h x y := by
  rw [hpart]
  constructor
  · rintro ⟨h', x', y', heq, hP⟩
    cases heq
    exact hP
  · exact fun hP => ⟨h, x, y, rfl, hP⟩

/-- The first check that a fill band fails is one of checks 3 to 5 (R35). -/
theorem bandFault_firstFails_fill {s : State} {l : Layout} {b : Band} {later : List Band} {c : Colour}
    (hpart : b.part = .fill c) (hb : 1 ≤ b.count) (hlater : ∀ c ∈ later, 1 ≤ c.count) :
    FirstFails (FailsCheck s l b later) (bandFault s l b later) := by
  have hnone : ∀ {P : Handle → Nat → Nat → Prop}, ¬∃ h x y, b.part = .surface h x y ∧ P h x y := fun ⟨h, x, y, heq, _⟩ => by
    rw [hpart] at heq
    cases heq
  have h1 : ¬FailsCheck s l b later .noSurface := hnone
  have h2 : ¬FailsCheck s l b later .notOwner := hnone
  have h6 : ¬FailsCheck s l b later .viewport := hnone
  have h7 : ¬FailsCheck s l b later .panAlign := hnone
  have h8 : ¬FailsCheck s l b later .palette := hnone
  have hplace : bandFault s l b later = placeFault l b later := by simp only [bandFault, hpart]
  rw [hplace]
  obtain ⟨heq, h3⟩ | ⟨h3, ⟨heq, h4⟩ | ⟨h4, ⟨heq, h5⟩ | ⟨heq, h5⟩⟩⟩ := placeFault_cases s l hb hlater <;> rw [heq]
  · refine ⟨h3, fun r hr => ?_⟩
    cases r <;> first | assumption | exact id | exact absurd hr (by decide)
  · refine ⟨h4, fun r hr => ?_⟩
    cases r <;> first | assumption | exact id | exact absurd hr (by decide)
  · refine ⟨h5, fun r hr => ?_⟩
    cases r <;> first | assumption | exact id | exact absurd hr (by decide)
  · intro r
    cases r <;> first | assumption | exact id

/-- The first check that a surface band fails (R35). -/
theorem bandFault_firstFails_surface {s : State} {l : Layout} {b : Band} {later : List Band} {h : Handle} {x y : Nat}
    (hpart : b.part = .surface h x y) (hb : 1 ≤ b.count) (hlater : ∀ c ∈ later, 1 ≤ c.count) :
    FirstFails (FailsCheck s l b later) (bandFault s l b later) := by
  have hlive : FailsCheck s l b later .noSurface ↔ ¬NamesLive s h := exists_surfacePart_iff hpart
  have howner : FailsCheck s l b later .notOwner ↔ (s.alloc.table.get h.index).owner ≠ b.key.owner :=
    exists_surfacePart_iff hpart
  have hview : FailsCheck s l b later .viewport ↔ ((s.alloc.table.get h.index).width < x + l.timing.hdw ∨
      (s.alloc.table.get h.index).height < y + b.count) := exists_surfacePart_iff hpart
  have hpan : FailsCheck s l b later .panAlign ↔ x % pixelsPerByte (s.alloc.table.get h.index).depth ≠ 0 :=
    (exists_surfacePart_iff hpart).trans (not_congr Nat.dvd_iff_mod_eq_zero)
  have hpal : FailsCheck s l b later .palette ↔
      ¬grantCovers (grantOf s b.key.owner) (s.alloc.table.get h.index).depth = true :=
    (exists_surfacePart_iff hpart).trans grantCovers_iff.symm
  by_cases h1 : FailsCheck s l b later .noSurface
  · have heq : bandFault s l b later = some .noSurface := by
      simp only [bandFault, hpart, liveSurface_of_not_namesLive (hlive.1 h1)]
    rw [heq]
    refine ⟨h1, fun r hr => ?_⟩
    cases r <;> first | exact id | exact absurd hr (by decide)
  by_cases h2 : FailsCheck s l b later .notOwner
  · have heq : bandFault s l b later = some .notOwner := by
      simp only [bandFault, hpart, liveSurface_of_namesLive (not_not.1 (mt hlive.2 h1)), if_pos (howner.1 h2)]
    rw [heq]
    refine ⟨h2, fun r hr => ?_⟩
    cases r <;> first | assumption | exact id | exact absurd hr (by decide)
  have hfault : bandFault s l b later =
      match placeFault l b later with
      | some r => some r
      | none => viewFault l b (s.alloc.table.get h.index) x y (grantOf s b.key.owner) := by
    simp only [bandFault, hpart, liveSurface_of_namesLive (not_not.1 (mt hlive.2 h1)), if_neg (mt howner.2 h2)] <;> rfl
  rw [hfault]
  obtain ⟨heq, h3⟩ | ⟨h3, ⟨heq, h4⟩ | ⟨h4, ⟨heq, h5⟩ | ⟨heq, h5⟩⟩⟩ := placeFault_cases s l hb hlater <;> rw [heq]
  · refine ⟨h3, fun r hr => ?_⟩
    cases r <;> first | assumption | exact id | exact absurd hr (by decide)
  · refine ⟨h4, fun r hr => ?_⟩
    cases r <;> first | assumption | exact id | exact absurd hr (by decide)
  · refine ⟨h5, fun r hr => ?_⟩
    cases r <;> first | assumption | exact id | exact absurd hr (by decide)
  dsimp only
  unfold viewFault
  by_cases h6 : FailsCheck s l b later .viewport
  · rw [if_pos (hview.1 h6)]
    refine ⟨h6, fun r hr => ?_⟩
    cases r <;> first | assumption | exact id | exact absurd hr (by decide)
  rw [if_neg (mt hview.2 h6)]
  by_cases h7 : FailsCheck s l b later .panAlign
  · rw [if_pos (hpan.1 h7)]
    refine ⟨h7, fun r hr => ?_⟩
    cases r <;> first | assumption | exact id | exact absurd hr (by decide)
  rw [if_neg (mt hpan.2 h7)]
  by_cases h8 : FailsCheck s l b later .palette
  · rw [if_pos (hpal.1 h8)]
    refine ⟨h8, fun r hr => ?_⟩
    cases r <;> first | assumption | exact id | exact absurd hr (by decide)
  · rw [if_neg (mt hpal.2 h8)]
    intro r
    cases r <;> first | assumption | exact id

/-- The checks of R35 on one band find the first that fails. -/
theorem bandFault_firstFails {s : State} {l : Layout} {b : Band} {later : List Band} (hb : 1 ≤ b.count)
    (hlater : ∀ c ∈ later, 1 ≤ c.count) : FirstFails (FailsCheck s l b later) (bandFault s l b later) := by
  cases hpart : b.part with
  | fill c => exact bandFault_firstFails_fill hpart hb hlater
  | surface h x y => exact bandFault_firstFails_surface hpart hb hlater

/-! ### The band list (R35) -/

theorem firstBandFault_eq_none {s : State} {l : Layout} : ∀ {bs : List Band},
    firstBandFault s l bs = none ↔ ∀ ahead b later, bs = ahead ++ b :: later → bandFault s l b later = none
  | [] => by simp [firstBandFault]
  | b :: rest => by
    rw [firstBandFault]
    cases hb : bandFault s l b rest with
    | some r =>
      constructor
      · intro h
        cases h
      · intro h
        rw [h [] b rest rfl] at hb
        cases hb
    | none =>
      refine (firstBandFault_eq_none (bs := rest)).trans (Iff.intro (fun h ahead a later heq => ?_)
        (fun h ahead a later heq => ?_))
      · cases ahead with
        | nil =>
          obtain ⟨rfl, rfl⟩ := List.cons.inj heq
          exact hb
        | cons x ahead => exact h ahead a later (List.cons.inj heq).2
      · exact h (b :: ahead) a later (congrArg (b :: ·) heq)

theorem firstBandFault_eq_some {s : State} {l : Layout} {r : Reason} {k : BandKey} : ∀ {bs : List Band},
    firstBandFault s l bs = some (r, k) ↔
      ∃ ahead b later, bs = ahead ++ b :: later ∧ k = b.key ∧ bandFault s l b later = some r ∧
        ∀ ahead' a later', bs = ahead' ++ a :: later' → ahead'.length < ahead.length → bandFault s l a later' = none
  | [] => by simp [firstBandFault]
  | b :: rest => by
    rw [firstBandFault]
    cases hb : bandFault s l b rest with
    | some r0 =>
      constructor
      · intro h
        cases h
        exact ⟨[], b, rest, rfl, rfl, hb, fun ahead' a later' _ hlt => absurd hlt (Nat.not_lt_zero _)⟩
      · rintro ⟨ahead, a, later, heq, rfl, hr, hearlier⟩
        cases ahead with
        | nil =>
          cases heq
          rw [hb] at hr
          rw [Option.some.inj hr]
        | cons x ahead =>
          have := hearlier [] b rest rfl (Nat.succ_pos _)
          rw [hb] at this
          cases this
    | none =>
      refine (firstBandFault_eq_some (bs := rest)).trans ⟨?_, ?_⟩
      · rintro ⟨ahead, a, later, rfl, rfl, hr, hearlier⟩
        refine ⟨b :: ahead, a, later, rfl, rfl, hr, fun ahead' a' later' heq hlt => ?_⟩
        cases ahead' with
        | nil =>
          obtain ⟨rfl, rfl⟩ := List.cons.inj heq
          exact hb
        | cons x ahead' => exact hearlier ahead' a' later' (List.cons.inj heq).2 (Nat.lt_of_succ_lt_succ hlt)
      · rintro ⟨ahead, a, later, heq, rfl, hr, hearlier⟩
        cases ahead with
        | nil =>
          cases heq
          rw [hb] at hr
          cases hr
        | cons x ahead =>
          exact ⟨ahead, a, later, (List.cons.inj heq).2, rfl, hr, fun ahead' a' later' heq' hlt =>
            hearlier (b :: ahead') a' later' (congrArg (b :: ·) heq') (Nat.succ_lt_succ hlt)⟩

/-! ### Validation (R35) -/

theorem bandCountOk_iff {bs : List Band} :
    bandCountOk bs = true ↔ bs.length ≤ 16 ∧ ∀ p, (bs.filter fun b => decide (b.key.owner = p)).length ≤ 8 := by
  simp only [bandCountOk, Bool.and_eq_true, List.all_eq_true, Config.maxBands, Config.maxBandsPerPort]
  constructor
  · rintro ⟨hall, hport⟩
    exact ⟨of_decide_eq_true hall, fun p => of_decide_eq_true (hport p (Port.mem_all p))⟩
  · rintro ⟨hall, hport⟩
    exact ⟨decide_eq_true hall, fun p _ => decide_eq_true (hport p)⟩

theorem timingInRange_iff {t : Timing} : timingInRange t = true ↔ InRange t := by
  simp only [timingInRange, InRange, Bool.and_eq_true, decide_eq_true_iff, Nat.dvd_iff_mod_eq_zero, and_assoc]

theorem validate_of_passes {s : State} {l : Layout} (h : firstBandFault s l l.bands = none) :
    validate s l = if ¬bandCountOk l.bands then some (.bandLimit, none)
      else if ¬timingInRange l.timing then some (.range, none) else none := by
  rw [validate, h]

/-- Settles O35: the bands in list order, then the limits of R6, then the ranges of R10. -/
theorem validationTakesTheFirstFailure : Obligations.ValidationTakesTheFirstFailure := by
  unfold Obligations.ValidationTakesTheFirstFailure
  intro s l hcounts passes few
  have hfirst : ∀ {ahead b later}, l.bands = ahead ++ b :: later →
      FirstFails (FailsCheck s l b later) (bandFault s l b later) := fun heq =>
    bandFault_firstFails (hcounts _ (by simp [heq])) fun c hc => hcounts c (by simp [heq, hc])
  have hpasses : firstBandFault s l l.bands = none ↔ passes :=
    firstBandFault_eq_none.trans ⟨fun h ahead b later heq => (hfirst heq).eq_none_iff.1 (h ahead b later heq),
      fun h ahead b later heq => (hfirst heq).eq_none_iff.2 (h ahead b later heq)⟩
  have hfew : bandCountOk l.bands = true ↔ few := bandCountOk_iff
  have hrange : timingInRange l.timing = true ↔ InRange l.timing := timingInRange_iff
  cases hfault : firstBandFault s l l.bands with
  | none =>
    have hpass : passes := hpasses.1 hfault
    have hlater : ∀ r k, r ≠ .bandLimit → r ≠ .range → (validate s l ≠ some (r, k)) := by
      intro r k h1 h2 heq
      rw [validate_of_passes hfault] at heq
      split at heq
      · cases heq
        exact h1 rfl
      · split at heq
        · cases heq
          exact h2 rfl
        · cases heq
    refine ⟨?_, ?_, ?_, fun r k h1 h2 => ⟨fun h => absurd h (hlater r k h1 h2), ?_⟩⟩
    · rw [validate_of_passes hfault, ← hfew, ← hrange]
      cases bandCountOk l.bands <;> cases timingInRange l.timing <;> simp [hpass]
    · rw [validate_of_passes hfault, ← hfew]
      cases bandCountOk l.bands <;> cases timingInRange l.timing <;> simp [hpass]
    · rw [validate_of_passes hfault, ← hfew, ← hrange]
      cases bandCountOk l.bands <;> cases timingInRange l.timing <;> simp [hpass]
    · rintro ⟨ahead, b, later, heq, -, hfails, -⟩
      exact absurd hfails (hpass ahead b later heq r)
  | some x =>
    obtain ⟨r0, k0⟩ := x
    have hvalidate : validate s l = some (r0, some k0) := by
      rw [validate, hfault]
    have hnot : ¬passes := fun h => by
      rw [hpasses.2 h] at hfault
      cases hfault
    refine ⟨⟨fun h => ?_, fun h => absurd h.1 hnot⟩, ⟨fun h => ?_, fun h => absurd h.1 hnot⟩,
      ⟨fun h => ?_, fun h => absurd h.1 hnot⟩, fun r k _ _ => ?_⟩
    · rw [hvalidate] at h
      cases h
    · rw [hvalidate] at h
      cases h
    · rw [hvalidate] at h
      cases h
    · rw [hvalidate]
      constructor
      · intro h
        cases h
        obtain ⟨ahead, b, later, heq, rfl, hr, hearlier⟩ := firstBandFault_eq_some.1 hfault
        obtain ⟨hfails, hbelow⟩ := (hfirst heq).eq_some_iff.1 hr
        exact ⟨ahead, b, later, heq, rfl, hfails, hbelow, fun ahead' a later' heq' hlt =>
          (hfirst heq').eq_none_iff.1 (hearlier ahead' a later' heq' hlt)⟩
      · rintro ⟨ahead, b, later, heq, rfl, hfails, hbelow, hearlier⟩
        have hsome := firstBandFault_eq_some.2 ⟨ahead, b, later, heq, rfl,
          (hfirst heq).eq_some_iff.2 ⟨hfails, hbelow⟩, fun ahead' a later' heq' hlt =>
          (hfirst heq').eq_none_iff.2 (hearlier ahead' a later' heq' hlt)⟩
        rw [hfault] at hsome
        cases hsome
        rfl

end Sys2Proof.Machine
end


section
/-! PROOFS. What a queue still says of a notice it took (R179, R180), and the power sequencer at VBLANK_START (R140, R141, R143). -/

namespace Sys2Proof.Machine

/-! ### What a queue says of a notice (R179, R180) -/

/-- The queue holds a notice, or says that it has lost one. -/
def Told (nq : NoticeQueue) (n : Notice) : Prop := n ∈ nq.queue ∨ nq.lost = true

/-- A notice that takes the place of another (R180). -/
def Overwrites (m n : Notice) : Prop :=
  m ≠ n ∧ (m.isFrame = true ∧ n.isFrame = true ∨ m.isPower = true ∧ n.isPower = true)

theorem mem_map_replace {f : Notice → Bool} {m n : Notice} {q : List Notice} (hn : n ∈ q) (hkeep : f n = true → m = n) :
    n ∈ q.map fun x => if f x then m else x := by
  refine List.mem_map.2 ⟨n, hn, ?_⟩
  by_cases h : f n = true
  · rw [if_pos h, hkeep h]
  · rw [if_neg h]

/-- A fold keeps every notice that it does not overwrite. -/
theorem mem_coalesce {m n : Notice} {q q' : List Notice} (h : coalesce m q = some q') (hn : n ∈ q) (hkeep : ¬Overwrites m n) :
    n ∈ q' := by
  have hsame : (m.isFrame = true ∧ n.isFrame = true ∨ m.isPower = true ∧ n.isPower = true) → m = n := fun hkind =>
    Classical.byContradiction fun hne => hkeep ⟨hne, hkind⟩
  cases m with
  | frame f =>
    simp only [coalesce] at h
    split at h
    · cases h
      exact mem_map_replace hn fun hf => hsame (.inl ⟨rfl, hf⟩)
    · cases h
  | power f =>
    simp only [coalesce] at h
    split at h
    · cases h
      exact mem_map_replace hn fun hf => hsame (.inr ⟨rfl, hf⟩)
    · cases h
  | stale k =>
    simp only [coalesce] at h
    split at h
    · cases h
      exact hn
    · cases h
  | committed | rejected | evicted | jobDone | jobCancelled | jobAborted => cases h

/-- What is folded into a queue is in it. -/
theorem mem_coalesce_self {n : Notice} {q q' : List Notice} (h : coalesce n q = some q') : n ∈ q' := by
  cases n with
  | frame f =>
    simp only [coalesce] at h
    split at h
    case isTrue hany =>
      cases h
      obtain ⟨m, hm, hf⟩ := List.any_eq_true.1 hany
      exact List.mem_map.2 ⟨m, hm, if_pos hf⟩
    · cases h
  | power f =>
    simp only [coalesce] at h
    split at h
    case isTrue hany =>
      cases h
      obtain ⟨m, hm, hf⟩ := List.any_eq_true.1 hany
      exact List.mem_map.2 ⟨m, hm, if_pos hf⟩
    · cases h
  | stale k =>
    simp only [coalesce] at h
    split at h
    case isTrue hmem =>
      cases h
      exact hmem
    · cases h
  | committed | rejected | evicted | jobDone | jobCancelled | jobAborted => cases h

theorem take_cases (nq : NoticeQueue) (m : Notice) :
    (∃ q, coalesce m nq.queue = some q ∧ nq.take m = { nq with queue := q }) ∨
      nq.take m = { nq with queue := nq.queue ++ [m] } ∨ (m.isOutcome = false ∧ nq.take m = { nq with lost := true }) := by
  cases h : coalesce m nq.queue with
  | some q => exact .inl ⟨q, rfl, take_of_coalesce h⟩
  | none =>
    by_cases hroom : m.isOutcome = true ∨ otherCount nq.queue < Config.maxOtherNotices
    · exact .inr (.inl (take_of_room h hroom))
    · exact .inr (.inr ⟨Bool.eq_false_iff.2 fun hout => hroom (.inl hout), take_of_full h hroom⟩)

theorem mem_take {nq : NoticeQueue} {m n : Notice} (hn : n ∈ nq.queue) (hkeep : ¬Overwrites m n) :
    n ∈ (nq.take m).queue := by
  obtain ⟨q, hq, htake⟩ | htake | ⟨-, htake⟩ := take_cases nq m
  · rw [htake]
    exact mem_coalesce hq hn hkeep
  · rw [htake]
    exact List.mem_append_left _ hn
  · rw [htake]
    exact hn

theorem take_lost {nq : NoticeQueue} (m : Notice) (h : nq.lost = true) : (nq.take m).lost = true := by
  obtain ⟨q, -, htake⟩ | htake | ⟨-, htake⟩ := take_cases nq m <;> rw [htake]
  · exact h
  · exact h

theorem told_take {nq : NoticeQueue} {m n : Notice} (hn : Told nq n) (hkeep : ¬Overwrites m n) : Told (nq.take m) n :=
  hn.imp (fun h => mem_take h hkeep) (take_lost m)

theorem told_take_self (nq : NoticeQueue) (n : Notice) : Told (nq.take n) n := by
  obtain ⟨q, hq, htake⟩ | htake | ⟨-, htake⟩ := take_cases nq n <;> rw [htake]
  · exact .inl (mem_coalesce_self hq)
  · exact .inl (List.mem_append_right _ (List.mem_singleton_self n))
  · exact .inr rfl

/-- An outcome always finds room (R179). -/
theorem mem_take_outcome (nq : NoticeQueue) {n : Notice} (hout : n.isOutcome = true) : n ∈ (nq.take n).queue := by
  rw [take_of_room (coalesce_outcome hout) (.inl hout)]
  exact List.mem_append_right _ (List.mem_singleton_self n)

theorem not_overwrites_of_kinds {m n : Notice} (hf : n.isFrame = false) (hp : n.isPower = false) : ¬Overwrites m n := by
  rintro ⟨-, ⟨-, h⟩ | ⟨-, h⟩⟩
  · rw [hf] at h
    cases h
  · rw [hp] at h
    cases h

theorem not_overwrites_outcome {m n : Notice} (hout : n.isOutcome = true) : ¬Overwrites m n := by
  refine not_overwrites_of_kinds ?_ ?_ <;> cases n <;> first | rfl | cases hout

theorem told_foldl {n : Notice} : ∀ {ns : List Notice} {nq : NoticeQueue}, Told nq n → (∀ m ∈ ns, ¬Overwrites m n) →
    Told (ns.foldl NoticeQueue.take nq) n
  | [], _, h, _ => h
  | m :: ns, nq, h, hkeep =>
    told_foldl (ns := ns) (nq := nq.take m) (told_take h (hkeep m (List.mem_cons_self ..))) fun k hk => hkeep k (List.mem_cons_of_mem _ hk)

theorem mem_foldl_take {n : Notice} : ∀ {ns : List Notice} {nq : NoticeQueue}, n ∈ nq.queue → (∀ m ∈ ns, ¬Overwrites m n) →
    n ∈ (ns.foldl NoticeQueue.take nq).queue
  | [], _, h, _ => h
  | m :: ns, nq, h, hkeep =>
    mem_foldl_take (ns := ns) (nq := nq.take m) (mem_take h (hkeep m (List.mem_cons_self ..))) fun k hk => hkeep k (List.mem_cons_of_mem _ hk)

/-- A notice among those a queue took is told, when no other of them overwrites it. -/
theorem told_foldl_of_mem {n : Notice} : ∀ {ns : List Notice} {nq : NoticeQueue}, n ∈ ns → (∀ m ∈ ns, ¬Overwrites m n) →
    Told (ns.foldl NoticeQueue.take nq) n
  | m :: ns, nq, hn, hkeep => by
    have hrest : ∀ k ∈ ns, ¬Overwrites k n := fun k hk => hkeep k (List.mem_cons_of_mem _ hk)
    obtain rfl | hn := List.mem_cons.1 hn
    · exact told_foldl (ns := ns) (nq := nq.take n) (told_take_self nq n) hrest
    · exact told_foldl_of_mem (ns := ns) (nq := nq.take m) hn hrest

/-- An outcome among the notices that a queue took is in it. -/
theorem mem_foldl_of_outcome {n : Notice} (hout : n.isOutcome = true) : ∀ {ns : List Notice} {nq : NoticeQueue}, n ∈ ns →
    n ∈ (ns.foldl NoticeQueue.take nq).queue
  | m :: ns, nq, hn => by
    obtain rfl | hn := List.mem_cons.1 hn
    · exact mem_foldl_take (ns := ns) (nq := nq.take n) (mem_take_outcome nq hout) fun _ _ => not_overwrites_outcome hout
    · exact mem_foldl_of_outcome hout (ns := ns) (nq := nq.take m) hn

theorem foldl_take_frameSub : ∀ (ns : List Notice) (nq : NoticeQueue),
    (ns.foldl NoticeQueue.take nq).frameSub = nq.frameSub
  | [], _ => rfl
  | m :: ns, nq => by
    refine (foldl_take_frameSub ns (nq.take m)).trans ?_
    obtain ⟨q, -, htake⟩ | htake | ⟨-, htake⟩ := take_cases nq m <;> rw [htake]

theorem mem_noticesFor {q : Port} {n : Notice} {xs : List Posting} : n ∈ noticesFor q xs ↔ (q, n) ∈ xs := by
  simp [noticesFor]

/-- A posting of an event reaches the queue of an OPEN session: it is told, unless another of the event overwrites it. -/
theorem ToldMerged.told {s t : State} {blocks : List (List Posting)} (h : ToldMerged s t blocks) {q : Port}
    (hopen : (s.sessions.get q).state = .opened) {n : Notice} {xs : List Posting} (hxs : xs ∈ blocks) (hn : (q, n) ∈ xs)
    (hkeep : ∀ ys ∈ blocks, ∀ m, (q, m) ∈ ys → ¬Overwrites m n) : Told (t.notices.get q) n := by
  obtain ⟨ns, hns, -, hget⟩ := h q
  have hmem : ∀ m, m ∈ ns ↔ ∃ ys ∈ blocks, (q, m) ∈ ys := fun m => by
    rw [hns.mem_iff, List.mem_flatMap]
    simp only [mem_noticesFor]
  rw [hget, if_pos hopen]
  refine told_foldl_of_mem ((hmem n).2 ⟨xs, hxs, hn⟩) fun m hm => ?_
  obtain ⟨ys, hys, hm⟩ := (hmem m).1 hm
  exact hkeep ys hys m hm

/-- An outcome posted at an event is in the queue of its OPEN session. -/
theorem ToldMerged.mem_outcome {s t : State} {blocks : List (List Posting)} (h : ToldMerged s t blocks) {q : Port}
    (hopen : (s.sessions.get q).state = .opened) {n : Notice} (hout : n.isOutcome = true) {xs : List Posting} (hxs : xs ∈ blocks)
    (hn : (q, n) ∈ xs) : n ∈ (t.notices.get q).queue := by
  obtain ⟨ns, hns, -, hget⟩ := h q
  rw [hget, if_pos hopen]
  exact mem_foldl_of_outcome hout (hns.mem_iff.2 (List.mem_flatMap.2 ⟨xs, hxs, mem_noticesFor.2 hn⟩))

/-! ### The sessions at an application (R44) -/

theorem surfacesReport_state (p : Port) (s : State) (q : Port) :
    ((surfacesReport p s).sessions.get q).state = (s.sessions.get q).state := by
  unfold surfacesReport
  split
  · by_cases h : q = p
    · subst h
      simp
    · simp [PerPort.get_set_ne _ _ h]
  · rfl

theorem withdrawalReport_state (p : Port) (s : State) (q : Port) :
    ((withdrawalReport p s).sessions.get q).state = (s.sessions.get q).state := by
  rw [withdrawalReport, surfacesReport_state, freeWhere_frame]

theorem applyWithdrawal_state (p : Port) (s : State) (q : Port) :
    ((applyWithdrawal p s).sessions.get q).state = (s.sessions.get q).state := by
  simp only [applyWithdrawal, State.setSession_sessions]
  by_cases h : q = p
  · subst h
    rw [PerPort.get_set_same]
    exact withdrawalReport_state _ _ _
  · rw [PerPort.get_set_ne _ _ h]
    exact withdrawalReport_state _ _ _

theorem applyTransaction_sessions (t : Transaction) (s : State) : (applyTransaction t s).1.sessions = s.sessions := by
  rw [applyTransaction_frame]

/-- The application of queue entries opens and closes no session. -/
theorem applyEntries_state (es : List QueueEntry) : ∀ (s : State) (q : Port),
    ((applyEntries es s).1.sessions.get q).state = (s.sessions.get q).state := by
  induction es with
  | nil => exact fun _ _ => rfl
  | cons e es ih =>
    intro s q
    rw [applyEntries]
    split
    · exact ih s q
    · refine (ih _ q).trans ?_
      cases e with
      | transaction x => rw [applyEntry, applyTransaction_sessions]
      | withdrawal p => exact applyWithdrawal_state p s q

/-- What an application posts: outcomes and EVICTED, none of which is folded (R40 to R43, R180). -/
theorem applyEntries_posts_kinds {es : List QueueEntry} : ∀ {s : State} {x : Posting}, x ∈ (applyEntries es s).2 →
    x.2.isFrame = false ∧ x.2.isPower = false := by
  induction es with
  | nil => exact fun hx => absurd hx List.not_mem_nil
  | cons e es ih =>
    intro s x hx
    rw [applyEntries] at hx
    split at hx
    · exact ih hx
    · obtain hx | hx := List.mem_append.1 hx
      · cases e with
        | withdrawal p => exact absurd hx List.not_mem_nil
        | transaction t =>
          simp only [applyEntry, applyTransaction] at hx
          split at hx
          · obtain rfl := List.mem_singleton.1 hx
            exact ⟨rfl, rfl⟩
          · split at hx
            · obtain rfl := List.mem_singleton.1 hx
              exact ⟨rfl, rfl⟩
            · obtain rfl | hx := List.mem_cons.1 hx
              · exact ⟨rfl, rfl⟩
              · obtain ⟨k, -, rfl⟩ := List.mem_map.1 hx
                exact ⟨rfl, rfl⟩
      · exact ih hx

/-! ### The sequencer at VBLANK_START (R140, R141, R143) -/

/-- What the sequencer makes of VBLANK_START: the state after, and its postings. -/
structure VblankStep (s : State) (x : PowerStep) : Prop where
  frame : x.state = { s with power := powerAfterVblank s, timing := { s.timing with stopPending := x.state.timing.stopPending } }
  stop : x.state.timing.stopPending = true ↔ s.timing.stopPending = true ∨
    (s.power.state = .logicTail ∧ s.power.stopRequested = false ∧ s.power.target ≤ s.power.frameCount + 1)
  posts : x.posts =
    if (powerAfterVblank s).state = s.power.state then [] else powerToEach (powerAfterVblank s).state
  start : x.start = false

theorem countReaches_iff {s : State} : countReaches s = true ↔ s.power.target ≤ s.power.frameCount + 1 :=
  decide_eq_true_iff

theorem vblankStep_powerVblank {s : State} (hrun : s.timing.run = .running) : VblankStep s (powerVblank s) := by
  unfold powerVblank
  cases hstate : s.power.state with
  | dark | logicHeld => constructor <;> simp [powerAfterVblank, hstate, PowerStep.none]
  | logicLead =>
    dsimp only
    by_cases hstop : s.power.stopRequested = true
    · rw [if_pos hstop]
      constructor <;> simp [powerAfterVblank, hstate, hstop, PowerStep.none]
    · rw [if_neg hstop]
      by_cases hreach : s.power.target ≤ s.power.frameCount + 1
      · rw [if_pos (countReaches_iff.2 hreach)]
        cases hinh : s.power.inhibit <;> constructor <;>
          simp [powerAfterVblank, hstate, hstop, hreach, hinh, enterPower, countFrame, powerPostings, powerToEach]
      · rw [if_neg (mt countReaches_iff.1 hreach)]
        constructor <;> simp [powerAfterVblank, hstate, hstop, hreach, PowerStep.none, countFrame]
  | lit =>
    dsimp only
    cases hdemand : demand s with
    | false =>
      rw [if_pos (by simp)]
      constructor <;> simp [powerAfterVblank, hstate, hdemand, enterTail, enterPower, powerPostings, powerToEach]
    | true =>
      rw [if_neg (by simp)]
      cases hinh : s.power.inhibit
      · constructor <;> simp [powerAfterVblank, hstate, hdemand, hinh, PowerStep.none]
      · constructor <;> simp [powerAfterVblank, hstate, hdemand, hinh, enterPower, powerPostings, powerToEach]
  | logicTail =>
    dsimp only
    by_cases hstop : s.power.stopRequested = true
    · rw [if_pos hstop]
      constructor <;> simp [powerAfterVblank, hstate, hstop, PowerStep.none]
    · rw [if_neg hstop]
      by_cases hreach : s.power.target ≤ s.power.frameCount + 1
      · rw [if_pos (countReaches_iff.2 hreach)]
        constructor <;>
          simp [powerAfterVblank, hstate, hstop, hreach, requestStop, stopRequest, PowerStep.none, countFrame, hrun]
      · rw [if_neg (mt countReaches_iff.1 hreach)]
        constructor <;> simp [powerAfterVblank, hstate, hstop, hreach, PowerStep.none, countFrame]

/-! ### VBLANK_START (R28, R114) -/

theorem settleSessions_frame (s : State) : settleSessions s = { s with sessions := s.sessions.map settleSession } := rfl

/-- The state that the pass of a VBLANK_START leaves, before the sequencer takes the event. -/
def vblankPass (s : State) : State := (applicationPass (generatorVblank s)).1

/-- The frame of the pass at VBLANK_START. -/
theorem vblankPass_frame (s : State) :
    vblankPass s =
      { generatorVblank s with
        layout := (vblankPass s).layout
        timing := { (generatorVblank s).timing with pending := (vblankPass s).timing.pending }
        pal := (vblankPass s).pal, fresh := (vblankPass s).fresh, alloc := (vblankPass s).alloc
        sessions := (vblankPass s).sessions } := by
  unfold vblankPass applicationPass
  rw [applyEntries_frame]
  rfl

theorem vblankPass_power (s : State) : (vblankPass s).power = s.power := by
  rw [vblankPass_frame]
  rfl

theorem vblankPass_run (s : State) : (vblankPass s).timing.run = s.timing.run := by
  rw [vblankPass_frame]
  rfl

theorem vblankPass_stopPending (s : State) : (vblankPass s).timing.stopPending = s.timing.stopPending := by
  rw [vblankPass_frame]
  rfl

theorem vblankPass_notices (s : State) : (vblankPass s).notices = s.notices := by
  rw [vblankPass_frame]
  rfl

theorem vblankPass_state (s : State) (q : Port) :
    ((vblankPass s).sessions.get q).state = (s.sessions.get q).state := by
  rw [vblankPass, applicationPass, applyEntries_state]
  rfl

/-- The postings of the pass at VBLANK_START. -/
def vblankOutcomes (s : State) : List Posting := (applicationPass (generatorVblank s)).2

/-- The FRAME postings of a VBLANK_START (R182). -/
def vblankFrames (s : State) : List Posting := framePostings (generatorVblank s) (s.timing.frameNumber + 1#16)

theorem takeVblank_eq (s : State) :
    takeVblank s = settleSessions
      (deliverAny (vblankOutcomes s) (powerVblank (vblankPass s)).posts (vblankFrames s) (powerVblank (vblankPass s)).state) :=
  rfl

theorem powerAfterVblank_congr {s t : State} (h : s.power = t.power) : powerAfterVblank s = powerAfterVblank t := by
  simp only [powerAfterVblank, h, demand_congr (congrArg PowerSequencer.votes h)]

section
variable {s : State} (hrun : s.timing.run = .running)
include hrun

theorem vblankStep_vblankPass : VblankStep (vblankPass s) (powerVblank (vblankPass s)) :=
  vblankStep_powerVblank ((vblankPass_run s).trans hrun)

theorem takeVblank_power : (takeVblank s).power = powerAfterVblank s := by
  rw [takeVblank_eq, settleSessions_frame]
  refine (deliverAny_power _ _ _ _).trans ?_
  rw [(vblankStep_vblankPass hrun).frame]
  exact powerAfterVblank_congr (vblankPass_power s)

theorem takeVblank_timing :
    (takeVblank s).timing = { (vblankPass s).timing with stopPending := (takeVblank s).timing.stopPending } := by
  rw [takeVblank_eq, settleSessions_frame]
  simp only [deliverAny_timing]
  exact congrArg State.timing (vblankStep_vblankPass hrun).frame

theorem takeVblank_stopPending : (takeVblank s).timing.stopPending = true ↔ s.timing.stopPending = true ∨
    (s.power.state = .logicTail ∧ s.power.stopRequested = false ∧ s.power.target ≤ s.power.frameCount + 1) := by
  have hstop := (vblankStep_vblankPass hrun).stop
  rw [vblankPass_stopPending, vblankPass_power] at hstop
  rw [takeVblank_eq, settleSessions_frame]
  simp only [deliverAny_timing]
  exact hstop

/-- The notices of a VBLANK_START: those of the pass, of the sequencer and of the generator, merged (R114, R179). -/
theorem takeVblank_told : ToldMerged s (takeVblank s)
    [vblankOutcomes s,
      if (takeVblank s).power.state = s.power.state then [] else powerToEach (takeVblank s).power.state, vblankFrames s] := by
  have hstep := vblankStep_vblankPass hrun
  have hposts : (powerVblank (vblankPass s)).posts =
      if (takeVblank s).power.state = s.power.state then [] else powerToEach (takeVblank s).power.state := by
    rw [hstep.posts, takeVblank_power hrun, powerAfterVblank_congr (vblankPass_power s), vblankPass_power]
  rw [← hposts]
  refine toldMerged_of_deliverAny (u := (powerVblank (vblankPass s)).state) ?_ (fun q => ?_) ?_
  · rw [hstep.frame]
    exact vblankPass_notices s
  · rw [hstep.frame]
    exact iff_of_eq (congrArg (· = SessionState.opened) (vblankPass_state s q))
  · rw [takeVblank_eq, settleSessions_frame]

end

theorem mem_vblankOutcomes {s : State} {x : Posting} (hx : x ∈ vblankOutcomes s) : x.2.isFrame = false ∧ x.2.isPower = false :=
  applyEntries_posts_kinds hx

theorem mem_vblankFrames {s : State} {x : Posting} : x ∈ vblankFrames s ↔
    x.2 = .frame (s.timing.frameNumber + 1#16) ∧ (s.sessions.get x.1).state = .opened ∧ (s.notices.get x.1).frameSub = true := by
  obtain ⟨q, n⟩ := x
  simp only [vblankFrames, framePostings, generatorVblank, List.mem_map, List.mem_filter, Port.mem_all, true_and,
    Bool.and_eq_true, Prod.mk.injEq]
  constructor
  · rintro ⟨p, ⟨hopen, hsub⟩, rfl, rfl⟩
    exact ⟨rfl, of_decide_eq_true hopen, hsub⟩
  · rintro ⟨rfl, hopen, hsub⟩
    exact ⟨q, ⟨decide_eq_true hopen, hsub⟩, rfl, rfl⟩

theorem mem_powerToEach {st : PowerState} {x : Posting} : x ∈ powerToEach st ↔ x.2 = .power st := by
  obtain ⟨q, n⟩ := x
  simp only [powerToEach, List.mem_map, Port.mem_all, true_and, Prod.mk.injEq]
  constructor
  · rintro ⟨p, rfl, rfl⟩
    rfl
  · rintro rfl
    exact ⟨q, rfl, rfl⟩

/-- A change of power state at VBLANK_START is told to every OPEN session (R145). -/
theorem takeVblank_told_power {s : State} (hrun : s.timing.run = .running) (hne : (takeVblank s).power.state ≠ s.power.state)
    {p : Port} (hopen : (s.sessions.get p).state = .opened) :
    Told ((takeVblank s).notices.get p) (.power (takeVblank s).power.state) := by
  have hmerged := takeVblank_told hrun
  rw [if_neg hne] at hmerged
  refine hmerged.told hopen (xs := powerToEach _) (by simp) (mem_powerToEach.2 rfl) fun ys hys m hm => ?_
  rintro ⟨hmn, ⟨-, hframe⟩ | ⟨hpower, -⟩⟩
  · cases hframe
  · simp only [List.mem_cons, List.not_mem_nil, or_false] at hys
    obtain rfl | rfl | rfl := hys
    · rw [(mem_vblankOutcomes hm).2] at hpower
      cases hpower
    · exact hmn (mem_powerToEach.1 hm)
    · obtain ⟨rfl, -⟩ := mem_vblankFrames.1 hm
      cases hpower

/-- Settles O50: the pass and the notice block leave what the sequencer makes of the event. -/
theorem vblankDrivesThePower : Obligations.VblankDrivesThePower := by
  unfold Obligations.VblankDrivesThePower
  intro s hrun hpart hline
  have hat : atVblank s = true := atVblank_iff.2 ⟨⟨hrun, hpart⟩, hline⟩
  have hexec : exec .vblankStart s = .next (takeVblank s) := if_pos hat
  refine ⟨⟨takeVblank s, hexec, takeVblank_power hrun, takeVblank_stopPending hrun, fun hne p hopen => ?_⟩,
    fun hlead ⟨hstop, hreach⟩ => ?_, fun htail ⟨hstop, hreach⟩ => ?_⟩
  · exact takeVblank_told_power hrun hne hopen
  · have htaken : exec .leadCountReached s = .next (takeVblank s) := if_pos ⟨hat, hlead, hstop, countReaches_iff.2 hreach⟩
    refine ⟨htaken.trans hexec.symm, takeVblank s, htaken, ?_⟩
    rw [takeVblank_power hrun]
    simp [powerAfterVblank, hlead, hstop, hreach]
  · have htaken : exec .tailCountReached s = .next (takeVblank s) := if_pos ⟨hat, htail, hstop, countReaches_iff.2 hreach⟩
    refine ⟨htaken.trans hexec.symm, takeVblank s, htaken, ?_, ?_⟩
    · rw [takeVblank_power hrun]
      simp [powerAfterVblank, htail, hstop, hreach]
    · exact (takeVblank_stopPending hrun).2 (.inr ⟨htail, hstop, hreach⟩)

end Sys2Proof.Machine
end


section
/-! PROOFS. The application of queue entries: transactions accepted and rejected, withdrawals, and one pass over the queue (R28, R31 to R46). -/

namespace Sys2Proof.Machine

/-! ### Freeing surfaces (R57, R60, R62) -/

theorem vector_get_set {α : Type} {n : Nat} (v : Vector α n) (i j : Fin n) (x : α) :
    (v.set i.val x i.isLt).get j = if j = i then x else v.get j := by
  by_cases h : j = i
  · subst h
    rw [if_pos rfl]
    exact Vector.getElem_set_self _
  · rw [if_neg h]
    exact Vector.getElem_set_ne _ _ fun heq => h (Fin.ext heq.symm)

theorem freeSurface_table_get (i j : Fin 32) (s : State) :
    (freeSurface i s).alloc.table.get j =
      if j = i then { s.alloc.table.get i with state := .free } else s.alloc.table.get j :=
  vector_get_set _ i j _

/-- Freeing the entries that meet a condition, where the condition on an entry reads the entry and the marks alone: each listed entry that
meets it is FREE, and no other changes. -/
theorem freeFold_table_get {cond : State → Fin 32 → Bool}
    (hcond : ∀ t t' i, t.alloc.table.get i = t'.alloc.table.get i → t.alloc.withdrawalOut = t'.alloc.withdrawalOut → cond t i = cond t' i)
    (j : Fin 32) : ∀ (is : List (Fin 32)) (s : State), is.Nodup →
      (is.foldl (fun t i => if cond t i then freeSurface i t else t) s).alloc.table.get j =
        if j ∈ is ∧ cond s j = true then { s.alloc.table.get j with state := .free } else s.alloc.table.get j
  | [], s, _ => by simp
  | i :: is, s, hnodup => by
    obtain ⟨hi, hnodup⟩ := List.nodup_cons.1 hnodup
    rw [List.foldl_cons, freeFold_table_get hcond j is _ hnodup]
    by_cases hji : j = i
    · subst hji
      rw [if_neg fun h => hi h.1]
      by_cases hc : cond s j = true
      · rw [if_pos hc, if_pos ⟨List.mem_cons_self .., hc⟩, freeSurface_table_get, if_pos rfl]
      · rw [if_neg hc, if_neg fun h => hc h.2]
    · have hget : (if cond s i = true then freeSurface i s else s).alloc.table.get j = s.alloc.table.get j := by
        split
        · rw [freeSurface_table_get, if_neg hji]
        · rfl
      have hsame : cond (if cond s i = true then freeSurface i s else s) j = cond s j := by
        refine hcond _ _ _ hget ?_
        split <;> rfl
      rw [hget, hsame]
      simp [hji]

/-- What freeing entries leaves of the allocator beside the table, the free list and the charges. -/
theorem freeFold_marks (cond : State → Fin 32 → Bool) : ∀ (is : List (Fin 32)) (s : State),
    let t := is.foldl (fun t i => if cond t i then freeSurface i t else t) s
    t.alloc.quota = s.alloc.quota ∧ t.alloc.withdrawalOut = s.alloc.withdrawalOut ∧ t.alloc.reportOwed = s.alloc.reportOwed
  | [], _ => ⟨rfl, rfl, rfl⟩
  | i :: is, s => by
    obtain ⟨hquota, hout, howed⟩ := freeFold_marks cond is (if cond s i then freeSurface i s else s)
    refine ⟨hquota.trans ?_, hout.trans ?_, howed.trans ?_⟩ <;> split <;> rfl

theorem freeWhere_table_get (cond : SurfEntry → Bool) (s : State) (j : Fin 32) :
    (freeWhere cond s).alloc.table.get j =
      if cond (s.alloc.table.get j) = true then { s.alloc.table.get j with state := .free } else s.alloc.table.get j := by
  refine (freeFold_table_get (cond := fun t i => cond (t.alloc.table.get i)) (fun t t' i h _ => by rw [h]) j _ s
    (List.nodup_finRange 32)).trans ?_
  simp

theorem freeWhere_marks (cond : SurfEntry → Bool) (s : State) :
    (freeWhere cond s).alloc.quota = s.alloc.quota ∧ (freeWhere cond s).alloc.withdrawalOut = s.alloc.withdrawalOut ∧
      (freeWhere cond s).alloc.reportOwed = s.alloc.reportOwed :=
  freeFold_marks (fun t i => cond (t.alloc.table.get i)) _ s

theorem noRetiring_iff {s : State} {p : Port} : noRetiring s p = true ↔
    ∀ i : Fin 32, (s.alloc.table.get i).state = .retiring → (s.alloc.table.get i).owner ≠ p := by
  simp [noRetiring, imp_iff_not_or]

/-! ### The report that a port's surfaces are gone (R62, R174) -/

theorem surfacesReport_due {p : Port} {s : State} (howed : s.alloc.reportOwed.get p = true)
    (hout : s.alloc.withdrawalOut.get p = false) (hnone : noRetiring s p = true) :
    surfacesReport p s =
      { s with
        sessions := s.sessions.set p { s.sessions.get p with surfacesPending := false }
        alloc := { s.alloc with reportOwed := s.alloc.reportOwed.set p false } } :=
  if_pos ⟨howed, hout, hnone⟩

theorem surfacesReport_not_due {p : Port} {s : State}
    (h : ¬(s.alloc.reportOwed.get p = true ∧ s.alloc.withdrawalOut.get p = false ∧ noRetiring s p = true)) :
    surfacesReport p s = s := if_neg h

theorem surfacesReport_table (p : Port) (s : State) : (surfacesReport p s).alloc.table = s.alloc.table := by
  unfold surfacesReport
  split <;> rfl

/-! ### Withdrawals (R44, R62) -/

/-- What the withdrawal frees: the RETIRING surfaces of the port that no aborting job names (R62). -/
def freedAtWithdrawal (p : Port) (e : SurfEntry) : Bool :=
  decide (e.state = .retiring) && decide (e.owner = p) && !e.pendingAbort

theorem freedAtWithdrawal_iff {p : Port} {e : SurfEntry} :
    freedAtWithdrawal p e = true ↔ e.owner = p ∧ e.state = .retiring ∧ e.pendingAbort = false := by
  simp only [freedAtWithdrawal, Bool.and_eq_true, decide_eq_true_iff, Bool.not_eq_true']
  exact ⟨fun ⟨⟨h1, h2⟩, h3⟩ => ⟨h2, h1, h3⟩, fun ⟨h1, h2, h3⟩ => ⟨⟨h2, h1⟩, h3⟩⟩

/-- The allocator with its freed surfaces, before it reports. -/
def freedForWithdrawal (p : Port) (s : State) : State :=
  freeWhere (freedAtWithdrawal p)
    { s with alloc := { s.alloc with withdrawalOut := s.alloc.withdrawalOut.set p false } }

theorem withdrawalReport_eq (p : Port) (s : State) :
    withdrawalReport p s = surfacesReport p (freedForWithdrawal p s) := rfl

theorem freedForWithdrawal_sessions (p : Port) (s : State) : (freedForWithdrawal p s).sessions = s.sessions := by
  rw [freedForWithdrawal, freeWhere_frame]

theorem freedForWithdrawal_get (p : Port) (s : State) (i : Fin 32) :
    (freedForWithdrawal p s).alloc.table.get i =
      if (s.alloc.table.get i).owner = p ∧ (s.alloc.table.get i).state = .retiring ∧
          (s.alloc.table.get i).pendingAbort = false then
        { s.alloc.table.get i with state := .free }
      else s.alloc.table.get i := by
  rw [freedForWithdrawal, freeWhere_table_get]
  exact if_congr freedAtWithdrawal_iff rfl rfl

theorem freedForWithdrawal_marks (p : Port) (s : State) :
    (freedForWithdrawal p s).alloc.quota = s.alloc.quota ∧
      (freedForWithdrawal p s).alloc.withdrawalOut = s.alloc.withdrawalOut.set p false ∧
        (freedForWithdrawal p s).alloc.reportOwed = s.alloc.reportOwed := by
  rw [freedForWithdrawal]
  exact freeWhere_marks _ _

/-- After the withdrawal the port's RETIRING surfaces are those that an aborting job names. -/
theorem freedForWithdrawal_noRetiring {p : Port} {s : State} : noRetiring (freedForWithdrawal p s) p = true ↔
    ∀ i : Fin 32, (s.alloc.table.get i).state = .retiring → (s.alloc.table.get i).owner = p →
      (s.alloc.table.get i).pendingAbort = false := by
  rw [noRetiring_iff]
  refine forall_congr' fun i => ?_
  rw [freedForWithdrawal_get]
  by_cases hfreed : (s.alloc.table.get i).owner = p ∧ (s.alloc.table.get i).state = .retiring ∧
      (s.alloc.table.get i).pendingAbort = false
  · rw [if_pos hfreed]
    exact ⟨fun _ _ _ => hfreed.2.2, fun _ h => by cases h⟩
  · rw [if_neg hfreed]
    constructor
    · exact fun h hret hown => absurd hown (h hret)
    · exact fun h hret hown => hfreed ⟨hown, hret, h hret hown⟩

/-- The layout, the freshness records and the palette after a withdrawal, before the allocator is told (R44). -/
def withdrawnTables (p : Port) (s : State) : State :=
  releaseGrant p
    { s with
      layout :=
        { s.layout with
          active := { s.layout.active with bands := s.layout.active.bands.filter fun b => decide (b.key.owner ≠ p) } }
      fresh := { s.fresh with records := s.fresh.records.filter fun r => decide (r.key.owner ≠ p) } }

theorem withdrawnTables_alloc (p : Port) (s : State) : (withdrawnTables p s).alloc = s.alloc := rfl

theorem withdrawnTables_sessions (p : Port) (s : State) : (withdrawnTables p s).sessions = s.sessions := rfl

theorem applyWithdrawal_eq (p : Port) (s : State) :
    applyWithdrawal p s =
      (withdrawalReport p (withdrawnTables p s)).setSession p
        { (withdrawalReport p (withdrawnTables p s)).sessions.get p with withdrawalPending := false } := rfl

theorem applyWithdrawal_pal (p : Port) (s : State) :
    (applyWithdrawal p s).pal =
      { s.pal with records := s.pal.records.set p { s.pal.records.get p with grant := none, unpublished := false } } := by
  rw [applyWithdrawal_eq, State.setSession_pal, withdrawalReport_frame]
  rfl

theorem applyWithdrawal_table_get (p : Port) (s : State) (i : Fin 32) :
    (applyWithdrawal p s).alloc.table.get i =
      if (s.alloc.table.get i).owner = p ∧ (s.alloc.table.get i).state = .retiring ∧
          (s.alloc.table.get i).pendingAbort = false then
        { s.alloc.table.get i with state := .free }
      else s.alloc.table.get i := by
  have hfreed := freedForWithdrawal_get p (withdrawnTables p s) i
  rwa [← surfacesReport_table p, ← withdrawalReport_eq] at hfreed

theorem surfacesReport_sessions_ne {p q : Port} (s : State) (h : q ≠ p) :
    (surfacesReport p s).sessions.get q = s.sessions.get q := by
  unfold surfacesReport
  split
  · exact PerPort.get_set_ne _ _ h
  · rfl

theorem applyWithdrawal_sessions_ne {p q : Port} (s : State) (h : q ≠ p) :
    (applyWithdrawal p s).sessions.get q = s.sessions.get q := by
  rw [applyWithdrawal_eq, State.setSession_sessions, PerPort.get_set_ne _ _ h, withdrawalReport_eq,
    surfacesReport_sessions_ne _ h, freedForWithdrawal_sessions, withdrawnTables_sessions]

/-- When no aborting job names a RETIRING surface of the port, the report is made at once if it is owed, and the marks of the session are
clear (R62, R174). -/
theorem applyWithdrawal_session_done {p : Port} {s : State}
    (hnone : ∀ i : Fin 32, (s.alloc.table.get i).state = .retiring → (s.alloc.table.get i).owner = p →
      (s.alloc.table.get i).pendingAbort = false)
    (howed : (s.sessions.get p).surfacesPending = true → s.alloc.reportOwed.get p = true) :
    (applyWithdrawal p s).sessions.get p =
      { s.sessions.get p with withdrawalPending := false, surfacesPending := false } := by
  obtain ⟨-, hout, howes⟩ := freedForWithdrawal_marks p (withdrawnTables p s)
  rw [withdrawnTables_alloc] at hout howes
  rw [applyWithdrawal_eq, State.setSession_sessions, PerPort.get_set_same, withdrawalReport_eq]
  have hno : noRetiring (freedForWithdrawal p (withdrawnTables p s)) p = true := freedForWithdrawal_noRetiring.2 hnone
  by_cases hdue : s.alloc.reportOwed.get p = true
  · rw [surfacesReport_due (by rw [howes, hdue]) (by rw [hout, PerPort.get_set_same]) hno]
    simp only [PerPort.get_set_same, freedForWithdrawal_sessions, withdrawnTables_sessions]
  · have hclear : (s.sessions.get p).surfacesPending = false := Bool.eq_false_iff.2 (mt howed hdue)
    rw [surfacesReport_not_due fun h => hdue (howes ▸ h.1)]
    rw [freedForWithdrawal_sessions, withdrawnTables_sessions]
    exact congrArg (fun b => { s.sessions.get p with withdrawalPending := false, surfacesPending := b }) hclear

/-- While an aborting job names a RETIRING surface of the port, the report waits (R62, R175). -/
theorem applyWithdrawal_session_waits {p : Port} {s : State} {i : Fin 32} (hret : (s.alloc.table.get i).state = .retiring)
    (hown : (s.alloc.table.get i).owner = p) (habort : (s.alloc.table.get i).pendingAbort = true) :
    (applyWithdrawal p s).sessions.get p = { s.sessions.get p with withdrawalPending := false } := by
  rw [applyWithdrawal_eq, State.setSession_sessions, PerPort.get_set_same, withdrawalReport_eq,
    surfacesReport_not_due, freedForWithdrawal_sessions, withdrawnTables_sessions]
  rintro ⟨-, -, hno⟩
  have hclear := freedForWithdrawal_noRetiring.1 hno i hret hown
  rw [withdrawnTables_alloc, habort] at hclear
  cases hclear

theorem atEventEnd_opened {x : Session} (h : x.state = .opened) : atEventEnd x = x :=
  if_neg fun ⟨hclosing, _⟩ => by
    rw [h] at hclosing
    cases hclosing

theorem atEventEnd_marked {x : Session} (h : x.withdrawalPending = true ∨ x.surfacesPending = true) : atEventEnd x = x :=
  if_neg fun ⟨_, hw, hs⟩ => by
    rw [hw, hs] at h
    simp at h

/-- A session whose CLOSING state and marks agree has nothing to settle (R174, R175). -/
theorem atEventEnd_of_marks {x : Session} (h : x.state = .closing → x.withdrawalPending = true ∨ x.surfacesPending = true) :
    atEventEnd x = x := by
  by_cases hclosing : x.state = .closing
  · exact atEventEnd_marked (h hclosing)
  · exact if_neg fun ⟨hc, _⟩ => hclosing hc

/-- What a withdrawal does, on the state `u` at its application, read in a state `t` that has kept it and whose sessions have settled. -/
theorem withdrawnAs_of_applied {s u t : State} {p : Port} (hu : u.layout.active = s.layout.active ∧ u.fresh = s.fresh ∧
      u.pal = s.pal ∧ u.alloc = s.alloc ∧ u.sessions = s.sessions)
    (hactive : t.layout.active = (applyWithdrawal p u).layout.active) (hfresh : t.fresh = (applyWithdrawal p u).fresh)
    (hpal : t.pal = (applyWithdrawal p u).pal) (halloc : t.alloc.table = (applyWithdrawal p u).alloc.table)
    (hothers : ∀ q, q ≠ p → t.sessions.get q = (applyWithdrawal p u).sessions.get q)
    (hown : t.sessions.get p = atEventEnd ((applyWithdrawal p u).sessions.get p))
    (hclosing : (s.sessions.get p).state = .closing)
    (howed : (s.sessions.get p).surfacesPending = true → s.alloc.reportOwed.get p = true)
    (hwaits : ∀ i : Fin 32, (s.alloc.table.get i).state = .retiring → (s.alloc.table.get i).owner = p →
      (s.sessions.get p).surfacesPending = true) : WithdrawnAs s p t := by
  obtain ⟨hua, huf, hup, hul, hus⟩ := hu
  constructor
  case layout =>
    rw [hactive, applyWithdrawal_frame]
    simp only [hua]
  case fresh =>
    rw [hfresh, applyWithdrawal_frame]
    simp only [huf]
  case palette =>
    rw [hpal, applyWithdrawal_pal, hup]
  case surfaces =>
    intro i
    rw [halloc, applyWithdrawal_table_get, hul]
  case others =>
    intro q hq
    rw [hothers q hq, applyWithdrawal_sessions_ne u hq, hus]
  case ended =>
    intro hnone
    rw [hown, applyWithdrawal_session_done (by rw [hul]; exact hnone) (by rw [hul, hus]; exact howed), hus]
    exact (if_pos ⟨hclosing, rfl, rfl⟩).trans rfl
  case waits =>
    intro i hret hi habort
    rw [hown, applyWithdrawal_session_waits (by rw [hul]; exact hret) (by rw [hul]; exact hi) (by rw [hul]; exact habort),
      hus]
    exact atEventEnd_marked (.inr (hwaits i hret hi))

/-! ### Transactions (R31, R35, R40 to R43) -/

theorem bandFault_congr {s u : State} (htable : u.alloc.table = s.alloc.table) (hpal : u.pal = s.pal) (l : Layout) (b : Band)
    (later : List Band) : bandFault u l b later = bandFault s l b later := by
  simp only [bandFault, grantOf, htable, hpal]

theorem firstBandFault_congr {s u : State} (htable : u.alloc.table = s.alloc.table) (hpal : u.pal = s.pal) (l : Layout) :
    ∀ bs, firstBandFault u l bs = firstBandFault s l bs
  | [] => rfl
  | b :: later => by
    rw [firstBandFault, firstBandFault, bandFault_congr htable hpal, firstBandFault_congr htable hpal l later]

/-- Validation reads the surface table and the grants alone (R35). -/
theorem validate_congr {s u : State} (htable : u.alloc.table = s.alloc.table) (hpal : u.pal = s.pal) (l : Layout) :
    validate u l = validate s l := by
  rw [validate, validate, firstBandFault_congr htable hpal]

section
variable {x : Transaction} {u : State}

theorem applyTransaction_noBand {k : BandKey} (h : applyEdits x.port x.edits (Tentative.start u.layout.active) = .error k) :
    applyTransaction x u = (u.setRecord x.port .applied, [(x.port, .rejected x.tag .noBand (some k))]) := by
  rw [applyTransaction, h]

theorem applyTransaction_failed {v : Tentative} {r : Reason} {k : Option BandKey}
    (h : applyEdits x.port x.edits (Tentative.start u.layout.active) = .ok v) (hv : validate u v.copy = some (r, k)) :
    applyTransaction x u = (u.setRecord x.port .applied, [(x.port, .rejected x.tag r k)]) := by
  simp only [applyTransaction, h, hv]

theorem applyTransaction_accepted {v : Tentative}
    (h : applyEdits x.port x.edits (Tentative.start u.layout.active) = .ok v) (hv : validate u v.copy = none) :
    applyTransaction x u = acceptCopy x v (u.setRecord x.port .applied) := by
  simp only [applyTransaction, h, hv]

end

theorem handTiming_pending (edits : List Edit) (t : Timing) (s : State) :
    (handTiming edits t s).timing.pending = if edits.any Edit.isSetTiming then some t else s.timing.pending := by
  unfold handTiming
  split <;> rfl

theorem publish_draft (p : Port) (s : State) : (publish p s).pal.draft = s.pal.draft := by
  unfold publish
  dsimp only
  split <;> rfl

/-- The entries of the port's grant take the draft's colours, and no other entry changes (R85). -/
theorem publish_active_get (p : Port) (s : State) (i : Fin 256) :
    (publish p s).pal.active.get i =
      match (s.pal.records.get p).grant with
      | some g => if g.base ≤ i.val ∧ i.val < g.base + g.size then s.pal.draft.get i else s.pal.active.get i
      | none => s.pal.active.get i := by
  unfold publish
  dsimp only
  cases hgrant : (s.pal.records.get p).grant with
  | none => rfl
  | some g =>
    simp only [mapRange_get, entryAt_get]

/-- A port with a mark has a grant (R84), so publication clears the mark either way. -/
theorem publish_records {p : Port} {s : State} (h : (s.pal.records.get p).unpublished = true → (s.pal.records.get p).grant ≠ none) :
    (publish p s).pal.records = s.pal.records.set p { s.pal.records.get p with unpublished := false } := by
  unfold publish
  dsimp only
  cases hgrant : (s.pal.records.get p).grant with
  | none =>
    have hclear : (s.pal.records.get p).unpublished = false := Bool.eq_false_iff.2 fun hmark => h hmark hgrant
    have hsame : s.pal.records.get p = { grant := none, cursor := (s.pal.records.get p).cursor, unpublished := false } := by
      rw [← hgrant, ← hclear]
    exact (PerPort.set_get _ _).symm.trans (congrArg (s.pal.records.set p) hsame)
  | some g => rfl

section
variable (x : Transaction) (v : Tentative) (s : State)

theorem acceptCopy_pal : (acceptCopy x v s).1.pal = (publish x.port s).pal := by
  have hpal : ∀ u : State, u.pal = s.pal → (publish x.port u).pal = (publish x.port s).pal := fun u hu => by
    unfold publish
    simp only [hu]
    cases (s.pal.records.get x.port).grant with
    | none => exact hu
    | some g => rfl
  refine hpal (handTiming x.edits v.copy.timing { s with layout := { s.layout with active := v.copy } }) ?_
  rw [handTiming_frame]

theorem acceptCopy_layout : (acceptCopy x v s).1.layout = { s.layout with active := v.copy } := by
  rw [acceptCopy_frame]

theorem acceptCopy_pending : (acceptCopy x v s).1.timing.pending =
    if x.edits.any Edit.isSetTiming then some v.copy.timing else s.timing.pending := by
  have hpublish : (publish x.port (handTiming x.edits v.copy.timing { s with layout := { s.layout with active := v.copy } })).timing =
      (handTiming x.edits v.copy.timing { s with layout := { s.layout with active := v.copy } }).timing := by
    rw [publish_frame]
  exact (congrArg TimingGenerator.pending hpublish).trans (handTiming_pending _ _ _)

theorem acceptCopy_fresh : (acceptCopy x v s).1.fresh =
    { s.fresh with records := refreshRecords s.fresh.records v.changed v.copy.bands } := by
  have hfresh : (publish x.port (handTiming x.edits v.copy.timing { s with layout := { s.layout with active := v.copy } })).fresh =
      s.fresh := by
    rw [publish_frame, handTiming_frame]
  exact congrArg (fun f : Freshness => { f with records := refreshRecords f.records v.changed v.copy.bands }) hfresh

theorem acceptCopy_posts : (acceptCopy x v s).2 =
    (x.port, .committed x.tag s.timing.frameNumber) :: evictedPostings v.evicted v.copy.bands := rfl

end

theorem mem_evictedPostings {ks : List BandKey} {bs : List Band} {k : BandKey} (hk : k ∈ ks) (hgone : ∀ b ∈ bs, b.key ≠ k) :
    (k.owner, .evicted k) ∈ evictedPostings ks bs :=
  List.mem_map.2 ⟨k, List.mem_filter.2 ⟨hk, by rw [findBand_eq_none.2 hgone]; rfl⟩, rfl⟩

theorem refreshRecords_keys (old : List FreshRecord) (changed : List BandKey) (bs : List Band) :
    (refreshRecords old changed bs).map FreshRecord.key = bs.map Band.key := by
  rw [refreshRecords, List.map_map]
  refine List.map_congr_left fun b _ => ?_
  simp only [Function.comp_apply]
  split
  · rfl
  · split
    case h_1 r hr => simpa using List.find?_some hr
    case h_2 => rfl

/-- A changed band starts afresh, an untouched band keeps its record, and a band new to the list gets one (R41). -/
theorem mem_refreshRecords {old : List FreshRecord} {changed : List BandKey} {bs : List Band} {r : FreshRecord}
    (hr : r ∈ refreshRecords old changed bs) :
    (r.key ∈ changed → r.age = 0 ∧ r.mark = false) ∧
      (r.key ∉ changed → r ∈ old ∨ (r.age = 0 ∧ r.mark = false ∧ ∀ o ∈ old, o.key ≠ r.key)) := by
  obtain ⟨b, -, rfl⟩ := List.mem_map.1 hr
  by_cases hchanged : b.key ∈ changed
  · rw [if_pos hchanged]
    exact ⟨fun _ => ⟨rfl, rfl⟩, fun h => absurd hchanged h⟩
  · rw [if_neg hchanged]
    cases hfind : old.find? fun r => decide (r.key = b.key) with
    | some o =>
      have hkey : o.key = b.key := by simpa using List.find?_some hfind
      exact ⟨fun h => absurd (hkey ▸ h) hchanged, fun _ => .inl (List.mem_of_find?_eq_some hfind)⟩
    | none =>
      refine ⟨fun h => absurd h hchanged, fun _ => .inr ⟨rfl, rfl, fun o ho => ?_⟩⟩
      simpa using List.find?_eq_none.1 hfind o ho

/-- The tables that the application of an entry reads are the same in two states. -/
structure SameTables (s u : State) : Prop where
  active : u.layout.active = s.layout.active
  alloc : u.alloc = s.alloc
  sessions : u.sessions = s.sessions
  palette : u.pal = s.pal
  freshness : u.fresh = s.fresh
  pending : u.timing.pending = s.timing.pending

/-- A state keeps what the application of a transaction can change. -/
structure TablesLeft (r t : State) : Prop where
  layout : t.layout.active = r.layout.active ∧ t.layout.record = r.layout.record
  palette : t.pal = r.pal
  freshness : t.fresh = r.fresh
  pending : t.timing.pending = r.timing.pending

/-- The postings of an application are told to the OPEN sessions, and the outcomes stand in their queues. -/
def PostsTold (s t : State) (xs : List Posting) : Prop :=
  ∀ q n, (q, n) ∈ xs → (s.sessions.get q).state = .opened →
    Told (t.notices.get q) n ∧ (n.isOutcome = true → n ∈ (t.notices.get q).queue)

/-- What the application of a transaction does, on the state `u` at its application, read in a state `t` that has kept it. -/
theorem appliedAs_of_applied {s u t : State} {x : Transaction} (hu : SameTables s u)
    (ht : TablesLeft (applyTransaction x u).1 t) (htold : PostsTold s t (applyTransaction x u).2)
    (hrecord : u.layout.record.set x.port .applied = s.layout.record.set x.port .applied)
    (hopen : (s.sessions.get x.port).state = .opened)
    (hmark : (s.pal.records.get x.port).unpublished = true → (s.pal.records.get x.port).grant ≠ none) :
    AppliedAs s x.port x.tag x.edits u.timing.frameNumber t := by
  obtain ⟨hactive, halloc, -, hpal, hfresh, hpending⟩ := hu
  obtain ⟨⟨htactive, htrecord⟩, htpal, htfresh, htpending⟩ := ht
  have hstart : Tentative.start u.layout.active = Tentative.start s.layout.active := by rw [hactive]
  have hvalidate : ∀ l, validate u l = validate s l := validate_congr (by rw [halloc]) hpal
  have hkept : (applyTransaction x u).1 = u.setRecord x.port .applied → LayoutKept s t := fun hr => by
    rw [hr] at htactive htpal htfresh htpending
    exact ⟨htactive.trans hactive, htpending.trans hpending, htpal.trans hpal, htfresh.trans hfresh⟩
  constructor
  case record =>
    refine htrecord.trans (Eq.trans ?_ hrecord)
    cases hedits : applyEdits x.port x.edits (Tentative.start u.layout.active) with
    | error k =>
      rw [applyTransaction_noBand hedits]
      rfl
    | ok v =>
      cases hv : validate u v.copy with
      | some f =>
        rw [applyTransaction_failed hedits hv]
        rfl
      | none =>
        rw [applyTransaction_accepted hedits hv, acceptCopy_layout]
        rfl
  case noBand =>
    intro k hedits
    have happ := applyTransaction_noBand (hstart ▸ hedits)
    refine ⟨hkept (by rw [happ]), ?_⟩
    rw [happ] at htold
    exact (htold x.port _ (List.mem_singleton_self _) hopen).2 rfl
  case failed =>
    intro v r k hedits hv
    have happ := applyTransaction_failed (hstart ▸ hedits) ((hvalidate _).trans hv)
    refine ⟨hkept (by rw [happ]), ?_⟩
    rw [happ] at htold
    exact (htold x.port _ (List.mem_singleton_self _) hopen).2 rfl
  case accepted =>
    intro v hedits hv
    have happ := applyTransaction_accepted (hstart ▸ hedits) ((hvalidate _).trans hv)
    rw [happ] at htactive htpal htfresh htpending htold
    rw [acceptCopy_layout] at htactive
    rw [acceptCopy_pal] at htpal
    rw [acceptCopy_fresh, State.setRecord_fresh, hfresh] at htfresh
    rw [acceptCopy_pending, State.setRecord_timing, hpending] at htpending
    rw [acceptCopy_posts, State.setRecord_timing] at htold
    have hmark' : ((u.setRecord x.port .applied).pal.records.get x.port).unpublished = true →
        ((u.setRecord x.port .applied).pal.records.get x.port).grant ≠ none := by
      rw [State.setRecord_pal, hpal]
      exact hmark
    refine ⟨htactive, htpending, fun i => ?_, ?_, ?_, ?_, fun r hr => ?_, ?_, ?_, fun k hk hgone hkopen => ?_⟩
    · rw [htpal, publish_active_get, State.setRecord_pal, hpal] <;> rfl
    · rw [htpal, publish_draft, State.setRecord_pal, hpal]
    · rw [htpal, publish_records hmark', State.setRecord_pal, hpal]
    · rw [htfresh]
      exact refreshRecords_keys _ _ _
    · rw [htfresh] at hr
      exact mem_refreshRecords hr
    · rw [htfresh]
    · exact (htold x.port _ (List.mem_cons_self ..) hopen).2 rfl
    · exact (htold k.owner _ (List.mem_cons_of_mem _ (mem_evictedPostings hk hgone)) hkopen).1

/-! ### One pass over the queue (R28, R46) -/

theorem applyEntries_append (es fs : List QueueEntry) : ∀ s : State,
    applyEntries (es ++ fs) s =
      ((applyEntries fs (applyEntries es s).1).1, (applyEntries es s).2 ++ (applyEntries fs (applyEntries es s).1).2) := by
  induction es with
  | nil => exact fun s => rfl
  | cons e es ih =>
    intro s
    simp only [List.cons_append, applyEntries]
    split
    · exact ih s
    · rw [ih]
      simp only [List.append_assoc]

/-- A pass applies the one entry that is not held (R28). -/
theorem applyEntries_single {ahead behind : List QueueEntry} {e : QueueEntry} (hheld : ∀ x ∈ ahead ++ behind, x.held = true)
    (he : e.held = false) (s : State) : applyEntries (ahead ++ e :: behind) s = applyEntry e s := by
  have hahead : applyEntries ahead s = (s, []) := applyEntries_of_held s fun x hx => hheld x (List.mem_append_left _ hx)
  have hbehind : ∀ u, applyEntries behind u = (u, []) := fun u =>
    applyEntries_of_held u fun x hx => hheld x (List.mem_append_right _ hx)
  rw [applyEntries_append, hahead]
  simp only [applyEntries, he, Bool.false_eq_true, if_false, hbehind, List.nil_append, List.append_nil]

theorem held_of_awaited_nil {x : Transaction} (h : x.awaited = []) : (QueueEntry.transaction x).held = false := by
  simp [QueueEntry.held, h]

theorem filter_held_of_all {es : List QueueEntry} (h : ∀ e ∈ es, e.held = true) : es.filter QueueEntry.held = es :=
  List.filter_eq_self.2 h

/-- The marks law leaves no CLOSING session to settle (R174, R175). -/
theorem QueueLaw.atEventEnd_eq {s : State} (h : QueueLaw s) (p : Port) : atEventEnd (s.sessions.get p) = s.sessions.get p :=
  atEventEnd_of_marks (h.session p).marks.1

theorem settleSession_eq (x : Session) : settleSession x = atEventEnd x := rfl

theorem layoutController_ext {a b : LayoutController} (hactive : a.active = b.active) (hstaging : a.staging = b.staging)
    (hqueue : a.queue = b.queue) (hrecord : a.record = b.record) : a = b := by
  cases a
  cases b
  subst hactive hstaging hqueue hrecord
  rfl

/-- A pass over the queue of a lawful state, read in the state at the end of the event. -/
theorem passedAs_of_left {s u t : State} (hs : Lawful s) (hu : SameTables s u)
    (hrecord : u.layout.record = s.layout.record) (hstaging : u.layout.staging = s.layout.staging)
    (hqueue : u.layout.queue = s.layout.queue.filter QueueEntry.held) (ht : PassLeft (applyEntries s.layout.queue u).1 t)
    (htold : PostsTold s t (applyEntries s.layout.queue u).2) : PassedAs s u.timing.frameNumber t := by
  obtain ⟨htlayout, htpal, htfresh, htalloc, htpending, htsessions⟩ := ht
  have hframe := applyEntries_frame s.layout.queue u
  constructor
  case queue =>
    rw [htlayout, hframe]
    exact hqueue
  case staging =>
    rw [htlayout, hframe]
    exact hstaging
  case allHeld =>
    intro hheld
    obtain ⟨hactive, halloc, hsessions, hpal, hfresh, hpending⟩ := hu
    rw [applyEntries_of_held u hheld] at htlayout htpal htfresh htalloc htpending htsessions
    have hlayout : u.layout = s.layout := by
      rw [filter_held_of_all hheld] at hqueue
      exact layoutController_ext hactive hstaging hqueue hrecord
    refine ⟨htlayout.trans hlayout, ⟨by rw [htlayout, hlayout], htpending.trans hpending, htpal.trans hpal,
      htfresh.trans hfresh⟩, htalloc.trans halloc, PerPort.ext_get fun p => ?_⟩
    rw [htsessions, hsessions, hs.queue.atEventEnd_eq]
  case transaction =>
    intro x ahead behind hsplit hawaited hheld
    have hentry := hs.queue.entry (.transaction x) (by rw [hsplit]; simp)
    have happ : applyEntries s.layout.queue u = applyTransaction x u := by
      rw [hsplit]
      exact applyEntries_single hheld (held_of_awaited_nil hawaited) u
    rw [happ] at htlayout htpal htfresh htpending htold
    refine appliedAs_of_applied hu ⟨⟨by rw [htlayout], by rw [htlayout]⟩, htpal, htfresh, htpending⟩ htold (by rw [hrecord]) hentry.1
      fun hmark => ?_
    exact Option.isSome_iff_ne_none.1 ((hs.palette.record x.port).unpublished hmark)
  case withdrawal =>
    intro p ahead behind hsplit hheld
    obtain ⟨hclosing, -⟩ := hs.queue.entry (.withdrawal p) (by rw [hsplit]; simp)
    obtain ⟨-, howed, -⟩ := hs.surface.marks p
    obtain ⟨hactive, halloc, hsessions, hpal, hfresh, -⟩ := hu
    have happ : applyEntries s.layout.queue u = (applyWithdrawal p u, []) := by
      rw [hsplit]
      exact applyEntries_single hheld rfl u
    rw [happ] at htlayout htpal htfresh htalloc htsessions
    refine withdrawnAs_of_applied ⟨hactive, hfresh, hpal, halloc, hsessions⟩ (by rw [htlayout]) htfresh htpal (by rw [htalloc])
      (fun q hq => ?_) (htsessions p) hclosing (fun h => howed.trans h) fun i hret hown => ?_
    · rw [htsessions, applyWithdrawal_sessions_ne u hq, hsessions, hs.queue.atEventEnd_eq]
    · obtain hopen | ⟨-, hpending⟩ := (hs.surface.entry i).owned hret
      · rw [hown, hclosing] at hopen
        cases hopen
      · rwa [hown] at hpending

end Sys2Proof.Machine
end


section
/-! PROOFS. VBLANK_START and TIMING_STOPPED as events of the whole part (R28, R46, R114, R117, R144). -/

namespace Sys2Proof.Machine

/-! ### The application of single entries (R28) -/

/-- What the postings of an event leave, in whatever order the notice block took them (R179). -/
theorem ToldMerged.postsTold {s t : State} {blocks : List (List Posting)} (h : ToldMerged s t blocks) {xs : List Posting}
    (hxs : xs ∈ blocks) (hkinds : ∀ x ∈ xs, x.2.isFrame = false ∧ x.2.isPower = false) : PostsTold s t xs := by
  intro q n hn hopen
  obtain ⟨hframe, hpower⟩ := hkinds _ hn
  exact ⟨h.told hopen hxs hn fun _ _ _ _ => not_overwrites_of_kinds hframe hpower,
    fun hout => h.mem_outcome hopen hout hxs hn⟩

/-- Postings delivered one after another are told. -/
theorem postsTold_deliver {s u : State} {xs : List Posting} (hu : u.sessions = s.sessions)
    (hkinds : ∀ x ∈ xs, x.2.isFrame = false ∧ x.2.isPower = false) : PostsTold s (deliver xs u) xs := by
  intro q n hn hopen
  obtain ⟨hframe, hpower⟩ := hkinds _ hn
  rw [deliver_notices_get, if_pos (by rw [hu]; exact hopen)]
  exact ⟨told_foldl_of_mem (mem_noticesFor.2 hn) fun _ _ => not_overwrites_of_kinds hframe hpower,
    fun hout => mem_foldl_of_outcome hout (mem_noticesFor.2 hn)⟩

theorem applyEntry_posts_kinds {e : QueueEntry} {s : State} (he : e.held = false) :
    ∀ x ∈ (applyEntry e s).2, x.2.isFrame = false ∧ x.2.isPower = false := by
  have hone : applyEntries [e] s = applyEntry e s := applyEntries_single (ahead := []) (behind := []) (by simp) he s
  rw [← hone]
  exact fun x hx => applyEntries_posts_kinds hx

theorem SameTables.refl (s : State) : SameTables s s := ⟨rfl, rfl, rfl, rfl, rfl, rfl⟩

/-- The frame of one transaction's application. -/
theorem applyTransaction_frame_fine {x : Transaction} (hawaited : x.awaited = []) (u : State) :
    (applyTransaction x u).1 =
      { u with
        layout :=
          { u.layout with
            active := (applyTransaction x u).1.layout.active, record := (applyTransaction x u).1.layout.record }
        timing := { u.timing with pending := (applyTransaction x u).1.timing.pending }
        pal := (applyTransaction x u).1.pal, fresh := (applyTransaction x u).1.fresh } := by
  have hone : applyEntries [.transaction x] u = applyTransaction x u :=
    applyEntries_single (ahead := []) (behind := []) (by simp) (held_of_awaited_nil hawaited) u
  have halloc : (applyTransaction x u).1.alloc = u.alloc := by rw [applyTransaction_frame]
  have hframe := applyEntries_frame [.transaction x] u
  rwa [hone, halloc, applyTransaction_sessions] at hframe

/-- One transaction applied and its notices delivered (R28, R45). -/
def appliedAndTold (x : Transaction) (u : State) : State := deliver (applyTransaction x u).2 (applyTransaction x u).1

theorem appliedAndTold_frame {x : Transaction} (hawaited : x.awaited = []) (u : State) :
    appliedAndTold x u =
      { u with
        layout := { u.layout with active := (appliedAndTold x u).layout.active, record := (appliedAndTold x u).layout.record }
        timing := { u.timing with pending := (appliedAndTold x u).timing.pending }
        pal := (appliedAndTold x u).pal, fresh := (appliedAndTold x u).fresh, notices := (appliedAndTold x u).notices } := by
  unfold appliedAndTold
  rw [deliver_frame, applyTransaction_frame_fine hawaited]

theorem appliedAndTold_frameSub (x : Transaction) (u : State) (q : Port) :
    ((appliedAndTold x u).notices.get q).frameSub = (u.notices.get q).frameSub := by
  have hnotices : (applyTransaction x u).1.notices = u.notices := by rw [applyTransaction_frame]
  rw [appliedAndTold, deliver_notices_get, hnotices]
  split
  · exact foldl_take_frameSub _ _
  · rfl

/-- A state with the tables and the notices of one transaction applied and told (R40 to R43, R45). -/
theorem appliedAs_of_told {s u t : State} {x : Transaction} (hu : SameTables s u)
    (hrecord : u.layout.record.set x.port .applied = s.layout.record.set x.port .applied) (hawaited : x.awaited = [])
    (ht : TablesLeft (appliedAndTold x u) t) (hnotices : t.notices = (appliedAndTold x u).notices)
    (hopen : (s.sessions.get x.port).state = .opened)
    (hmark : (s.pal.records.get x.port).unpublished = true → (s.pal.records.get x.port).grant ≠ none) :
    AppliedAs s x.port x.tag x.edits u.timing.frameNumber t := by
  obtain ⟨⟨htactive, htrecord⟩, htpal, htfresh, htpending⟩ := ht
  have hleft : TablesLeft (applyTransaction x u).1 t := by
    unfold appliedAndTold at htactive htrecord htpal htfresh htpending
    rw [deliver_layout] at htactive htrecord
    rw [deliver_pal] at htpal
    rw [deliver_fresh] at htfresh
    rw [deliver_timing] at htpending
    exact ⟨⟨htactive, htrecord⟩, htpal, htfresh, htpending⟩
  refine appliedAs_of_applied hu hleft (fun q n hn hqopen => ?_) hrecord hopen hmark
  have hsessions : (applyTransaction x u).1.sessions = s.sessions := (applyTransaction_sessions x u).trans hu.sessions
  rw [hnotices]
  exact postsTold_deliver hsessions (applyEntry_posts_kinds (e := .transaction x) (held_of_awaited_nil hawaited)) q n hn hqopen

theorem TablesLeft.refl (s : State) : TablesLeft s s := ⟨⟨rfl, rfl⟩, rfl, rfl, rfl⟩

/-- One transaction applied and its notices delivered leave every other block alone (R45). -/
theorem appliedAlone_told {s : State} {x : Transaction} (hawaited : x.awaited = []) (q : List QueueEntry) :
    AppliedAlone s (appliedAndTold x (s.setQueue q)) := by
  have hframe := appliedAndTold_frame hawaited (s.setQueue q)
  refine ⟨⟨?_, ?_, ?_, ?_, ?_, ?_, ?_, ?_, ?_⟩, congrArg State.timing hframe, fun r => appliedAndTold_frameSub ..⟩ <;>
    · rw [hframe]
      rfl

theorem appliedAndTold_queue {x : Transaction} (hawaited : x.awaited = []) (u : State) :
    (appliedAndTold x u).layout.queue = u.layout.queue := by
  rw [appliedAndTold_frame hawaited]

/-! ### VBLANK_START (R28, R114) -/

theorem sameTables_generatorVblank (s : State) (q : List QueueEntry) : SameTables s ((generatorVblank s).setQueue q) :=
  ⟨rfl, rfl, rfl, rfl, rfl, rfl⟩

theorem passLeft_takeVblank {s : State} (hrun : s.timing.run = .running) : PassLeft (vblankPass s) (takeVblank s) := by
  have hframe := (vblankStep_vblankPass hrun).frame
  rw [takeVblank_eq, settleSessions_frame]
  constructor
  case sessions =>
    intro p
    simp only [deliverAny_sessions, PerPort.get_map]
    rw [hframe]
    rfl
  all_goals
    simp only [deliverAny_layout, deliverAny_pal, deliverAny_fresh, deliverAny_alloc, deliverAny_timing]
    rw [hframe]

theorem takeVblank_frame {s : State} (hrun : s.timing.run = .running) :
    takeVblank s =
      { vblankPass s with
        power := powerAfterVblank s, timing := (takeVblank s).timing, sessions := (takeVblank s).sessions
        notices := (takeVblank s).notices, draws := (takeVblank s).draws } := by
  have hframe := (vblankStep_vblankPass hrun).frame
  rw [powerAfterVblank_congr (vblankPass_power s)] at hframe
  rw [takeVblank_eq, settleSessions_frame, deliverAny_frame]
  rw [hframe]

/-- Each subscribed OPEN session is told the frame number at VBLANK_START (R182). -/
theorem takeVblank_told_frame {s : State} (hrun : s.timing.run = .running) {p : Port}
    (hopen : (s.sessions.get p).state = .opened) (hsub : (s.notices.get p).frameSub = true) :
    Told ((takeVblank s).notices.get p) (.frame (s.timing.frameNumber + 1#16)) := by
  refine (takeVblank_told hrun).told hopen (xs := vblankFrames s) (by simp) (mem_vblankFrames.2 ⟨rfl, hopen, hsub⟩)
    fun ys hys m hm => ?_
  rintro ⟨hmn, ⟨hframe, -⟩ | ⟨-, hpower⟩⟩
  · simp only [List.mem_cons, List.not_mem_nil, or_false] at hys
    obtain rfl | rfl | rfl := hys
    · rw [(mem_vblankOutcomes hm).1] at hframe
      cases hframe
    · split at hm
      · cases hm
      · obtain rfl := mem_powerToEach.1 hm
        cases hframe
    · exact hmn (mem_vblankFrames.1 hm).1
  · cases hpower

/-- Settles O49: the event is a pass over the queue, read through what it leaves. -/
theorem vblankAppliesTheQueue : Obligations.VblankAppliesTheQueue := by
  unfold Obligations.VblankAppliesTheQueue
  refine ⟨fun s hs hrun hpart hline => ?_, fun es fs s => applyEntries_append es fs s, fun e s he => ?_,
    fun x s hawaited hopen hmark => ?_, fun p s hclosing hsurfaces howed => ?_⟩
  · have hexec : exec .vblankStart s = .next (takeVblank s) := if_pos (atVblank_iff.2 ⟨⟨hrun, hpart⟩, hline⟩)
    have htold := takeVblank_told hrun
    have hleft := passLeft_takeVblank hrun
    have hframe := takeVblank_frame hrun
    have hpass := vblankPass_frame s
    refine ⟨takeVblank s, hexec, hleft, htold, ?_, ?_, ?_, ?_, ?_, ?_, ?_, fun p hopen hsub => ?_⟩
    · rw [takeVblank_timing hrun, hpass]
      rfl
    · rw [hframe, hpass]
      rfl
    · rw [hframe, hpass]
      rfl
    · rw [hframe, hpass]
      rfl
    · rw [hframe, hpass]
      rfl
    · rw [hframe, hpass]
      rfl
    · exact passedAs_of_left hs (sameTables_generatorVblank s (s.layout.queue.filter QueueEntry.held)) rfl rfl rfl hleft
        (htold.postsTold (xs := vblankOutcomes s) (List.mem_cons_self ..) fun x hx => mem_vblankOutcomes hx)
    · exact takeVblank_told_frame hrun hopen hsub
  · exact applyEntries_of_held s (by simpa using he)
  · have hone : applyEntries [.transaction x] s = applyTransaction x s :=
      applyEntries_single (ahead := []) (behind := []) (by simp) (held_of_awaited_nil hawaited) s
    dsimp only
    rw [hone]
    exact ⟨appliedAs_of_told (SameTables.refl s) rfl hawaited (TablesLeft.refl _) rfl hopen hmark,
      appliedAlone_told hawaited s.layout.queue, appliedAndTold_queue hawaited s⟩
  · have hone : applyEntries [.withdrawal p] s = (applyWithdrawal p s, []) :=
      applyEntries_single (ahead := []) (behind := []) (by simp) rfl s
    dsimp only
    rw [hone]
    refine ⟨rfl, withdrawnAs_of_applied (u := s) ⟨rfl, rfl, rfl, rfl, rfl⟩ rfl rfl rfl rfl (fun q hq => ?_) ?_ hclosing
      (fun _ => howed) fun _ _ _ => hsurfaces⟩
    · exact PerPort.get_set_ne _ _ hq
    · exact PerPort.get_set_same _ _ _

end Sys2Proof.Machine
end


section
/-! PROOFS. TIMING_STOPPED as one event (R46, R112, R117, R144), and the layout's timing parameters through a pass (R40, R108). -/

namespace Sys2Proof.Machine

/-! ### The timing parameters of the copy (R32, R40) -/

theorem changeSurface_cases {t t' : Tentative} {k : BandKey} {f : Handle → Nat → Nat → BandPart} (h : t.changeSurface k f = .ok t') :
    ∃ hd x y, t' = { t.withBands (setBandPart k (f hd x y) t.copy.bands) with changed := addKey k t.changed } := by
  simp only [Tentative.changeSurface] at h
  split at h
  · cases h
  · split at h
    · cases h
    · cases h
      exact ⟨_, _, _, rfl⟩

/-- SET_TIMING alone changes the timing parameters of the copy (R32). -/
theorem applyEdit_timing {p : Port} {t t' : Tentative} {e : Edit} (h : applyEdit p t e = .ok t')
    (he : e.isSetTiming = false) : t'.copy.timing = t.copy.timing := by
  cases e with
  | setTiming tm => cases he
  | bandPut b | setBackground c | setStaleColour c =>
    cases h
    rfl
  | bandView n x y | bandSurface n hd =>
    obtain ⟨_, _, _, rfl⟩ := changeSurface_cases h
    rfl
  | bandDrop n | evictBand k =>
    simp only [applyEdit] at h
    split at h <;> cases h
    all_goals rfl
  | setRegion q r =>
    cases h
    rw [(foldl_evict _ _).1]

theorem applyEdits_timing {p : Port} : ∀ {es : List Edit} {t t' : Tentative}, applyEdits p es t = .ok t' →
    es.any Edit.isSetTiming = false → t'.copy.timing = t.copy.timing
  | [], t, t', h, _ => by
    cases h
    rfl
  | e :: rest, t, t', h, hes => by
    obtain ⟨he, hrest⟩ := Bool.or_eq_false_iff.1 hes
    rw [applyEdits] at h
    split at h
    · cases h
    case h_2 t1 h1 => exact (applyEdits_timing h hrest).trans (applyEdit_timing h1 he)

/-- Acceptance hands over the timing parameters when they changed, so the layout and the generator agree as before (R40, R108). -/
theorem applyTransaction_agrees {x : Transaction} {s : State} (h : TimingAgrees s) : TimingAgrees (applyTransaction x s).1 := by
  cases hedits : applyEdits x.port x.edits (Tentative.start s.layout.active) with
  | error k =>
    rw [applyTransaction_noBand hedits]
    exact h
  | ok v =>
    cases hv : validate s v.copy with
    | some f =>
      rw [applyTransaction_failed hedits hv]
      exact h
    | none =>
      have hactive : (acceptCopy x v (s.setRecord x.port .applied)).1.timing.active = s.timing.active := by
        simp only [acceptCopy]
        rw [publish_frame]
        unfold handTiming
        split <;> rfl
      rw [applyTransaction_accepted hedits hv, TimingAgrees, acceptCopy_layout, acceptCopy_pending, hactive]
      by_cases hset : x.edits.any Edit.isSetTiming = true
      · rw [if_pos hset]
        rfl
      · rw [if_neg hset]
        exact (applyEdits_timing hedits (Bool.eq_false_iff.2 hset)).trans h

theorem applyEntries_agrees (es : List QueueEntry) : ∀ {s : State}, TimingAgrees s → TimingAgrees (applyEntries es s).1 := by
  induction es with
  | nil => exact fun h => h
  | cons e es ih =>
    intro s h
    rw [applyEntries]
    split
    · exact ih h
    · refine ih (s := (applyEntry e s).1) ?_
      cases e with
      | transaction x => exact applyTransaction_agrees h
      | withdrawal p =>
        rw [applyEntry, TimingAgrees, applyWithdrawal_frame]
        exact h

/-! ### TIMING_STOPPED (R46, R117, R144) -/

/-- The state that the pass of a TIMING_STOPPED leaves, before the sequencer takes the event. -/
def stopPass (s : State) : State := (applicationPass (generatorStop s)).1

/-- The postings of the pass at TIMING_STOPPED. -/
def stopOutcomes (s : State) : List Posting := (applicationPass (generatorStop s)).2

theorem takeTimingStopped_eq (s : State) :
    takeTimingStopped s = settleSessions (finishPower (stopOutcomes s) (powerStopped (stopPass s))) := rfl

theorem stopPass_frame (s : State) :
    stopPass s =
      { generatorStop s with
        layout := (stopPass s).layout
        timing := { (generatorStop s).timing with pending := (stopPass s).timing.pending }
        pal := (stopPass s).pal, fresh := (stopPass s).fresh, alloc := (stopPass s).alloc
        sessions := (stopPass s).sessions } := by
  unfold stopPass applicationPass
  rw [applyEntries_frame]
  rfl

theorem stopPass_state (s : State) (q : Port) : ((stopPass s).sessions.get q).state = (s.sessions.get q).state := by
  rw [stopPass, applicationPass, applyEntries_state]
  rfl

theorem stopPass_notices (s : State) : (stopPass s).notices = s.notices := by
  rw [stopPass_frame]
  rfl

theorem stopPass_power (s : State) : (stopPass s).power = s.power := by
  rw [stopPass_frame]
  rfl

theorem demand_stopPass (s : State) : demand (stopPass s) = demand s :=
  demand_congr (congrArg PowerSequencer.votes (stopPass_power s))

theorem stopPass_agrees {s : State} (h : TimingAgrees s) : TimingAgrees (stopPass s) :=
  applyEntries_agrees _ (s := (generatorStop s).setQueue (s.layout.queue.filter QueueEntry.held)) h

/-- What the pass alone leaves, its notices delivered and the sessions settled (R28, R174). -/
def passAlone (s : State) : State := settleSessions (deliver (stopOutcomes s) (stopPass s))

theorem passAlone_frame (s : State) :
    passAlone s = { stopPass s with sessions := (stopPass s).sessions.map settleSession, notices := (passAlone s).notices } := by
  unfold passAlone
  rw [settleSessions_frame, deliver_frame]

theorem passLeft_passAlone (s : State) : PassLeft (stopPass s) (passAlone s) := by
  rw [passAlone_frame]
  exact ⟨rfl, rfl, rfl, rfl, rfl, fun p => PerPort.get_map _ _ p⟩

theorem passAlone_notices (s : State) : (passAlone s).notices = (deliver (stopOutcomes s) s).notices := by
  unfold passAlone
  rw [settleSessions_frame]
  exact deliver_notices_congr _ (stopPass_notices s) fun q => iff_of_eq (congrArg (· = SessionState.opened) (stopPass_state s q))

theorem mem_stopOutcomes {s : State} {x : Posting} (hx : x ∈ stopOutcomes s) : x.2.isFrame = false ∧ x.2.isPower = false :=
  applyEntries_posts_kinds hx

theorem passedAs_passAlone {s : State} (hs : Lawful s) : PassedAs s s.timing.frameNumber (passAlone s) := by
  refine passedAs_of_left (u := (generatorStop s).setQueue (s.layout.queue.filter QueueEntry.held)) hs
    ⟨rfl, rfl, rfl, rfl, rfl, rfl⟩ rfl rfl rfl (passLeft_passAlone s) fun q n hn hopen => ?_
  rw [passAlone_notices]
  exact postsTold_deliver rfl (fun x hx => mem_stopOutcomes hx) q n hn hopen

/-- The sequencer in DARK (R144). -/
def darkened (s : State) : State := { s with power := { s.power with state := .dark, stopRequested := false } }

/-- The sequencer in LOGIC_LEAD again, in the event that stopped timing (R144). -/
def relit (s : State) : State :=
  { s with
    power := { s.power with state := .logicLead, stopRequested := false, frameCount := 0, target := s.power.lead } }

theorem powerStopped_quiet {s : State} (h : demand s = false) :
    powerStopped s = { state := darkened s, posts := powerToEach .dark, start := false } := by
  simp only [powerStopped, h, Bool.false_eq_true, if_false]
  rfl

theorem powerStopped_demand {s : State} (h : demand s = true) :
    powerStopped s = { state := relit s, posts := powerToEach .dark ++ powerToEach .logicLead, start := true } := by
  simp only [powerStopped, h, if_true]
  rfl

/-- The event without demand: the notices of the sequencer and of the pass, merged. -/
theorem takeTimingStopped_quiet {s : State} (h : demand s = false) :
    takeTimingStopped s =
      settleSessions (deliverAny (powerToEach .dark) (stopOutcomes s) [] (darkened (stopPass s))) := by
  rw [takeTimingStopped_eq, powerStopped_quiet ((demand_stopPass s).trans h), finishPower_quiet (.inl rfl)]

/-- The event with demand: the generator starts again and takes FRAME_START. -/
theorem takeTimingStopped_demand {s : State} (h : demand s = true) :
    takeTimingStopped s =
      settleSessions
        (deliverAny (powerToEach .dark ++ powerToEach .logicLead)
          (stopOutcomes s ++ staleTold (startedFrom (relit (stopPass s)))) []
          (beginFrame (startedFrom (relit (stopPass s)))).1) := by
  have hrun : (relit (stopPass s)).timing.run = .stopped := by
    rw [stopPass_frame]
    rfl
  rw [takeTimingStopped_eq, powerStopped_demand ((demand_stopPass s).trans h), finishPower_starts rfl hrun]

theorem sourceLine_scan_ne_none (n : Nat) (s : State) : (sourceLine n s).scan ≠ .none := by
  unfold sourceLine
  split
  · exact fun h => by cases h
  · split
    · exact fun h => by cases h
    · split
      · exact fun h => by cases h
      · exact fun h => by cases h

theorem beginFrame_scan_ne_none (s : State) : (beginFrame s).1.scan ≠ .none := by
  rw [beginFrame_eq_sourceLine]
  exact sourceLine_scan_ne_none _ _

theorem takeTimingStopped_frame (s : State) :
    takeTimingStopped s =
      { stopPass s with
        power := (takeTimingStopped s).power, timing := (takeTimingStopped s).timing, fresh := (takeTimingStopped s).fresh
        scan := (takeTimingStopped s).scan
        arb := { s.arb with lineFetch := (takeTimingStopped s).arb.lineFetch }
        sessions := (passAlone s).sessions, notices := (takeTimingStopped s).notices, draws := s.draws + 2 } := by
  have hstopped := powerStopped_frame (stopPass s)
  have hpass := stopPass_frame s
  rw [PowerStep.Frame] at hstopped
  rw [passAlone_frame, takeTimingStopped_eq, settleSessions_frame, finishPower_frame, hstopped]
  rw [hpass]
  rfl

/-- What the event leaves without demand (R117, R144). -/
theorem takeTimingStopped_dark {s : State} (h : demand s = false) :
    (takeTimingStopped s).timing =
        { s.timing with run := .stopped, stopPending := false, pending := (passAlone s).timing.pending } ∧
      (takeTimingStopped s).fresh = (passAlone s).fresh ∧
      ToldMerged s (takeTimingStopped s) [powerToEach .dark, stopOutcomes s] ∧
      (takeTimingStopped s).power = { s.power with state := .dark, stopRequested := false } ∧
      (takeTimingStopped s).scan = .none ∧ (takeTimingStopped s).arb = s.arb := by
  have hpass := stopPass_frame s
  rw [takeTimingStopped_quiet h, settleSessions_frame, passAlone_frame]
  refine ⟨?_, ?_, ?_, ?_, ?_, ?_⟩
  · refine (deliverAny_timing _ _ _ _).trans ?_
    exact congrArg State.timing hpass
  · exact deliverAny_fresh _ _ _ _
  · have hmerged : ToldMerged s (settleSessions (deliverAny (powerToEach .dark) (stopOutcomes s) [] (darkened (stopPass s))))
        [powerToEach .dark, stopOutcomes s, []] :=
      toldMerged_of_deliverAny (u := darkened (stopPass s)) (stopPass_notices s)
        (fun q => iff_of_eq (congrArg (· = SessionState.opened) (stopPass_state s q))) rfl
    exact hmerged.rename (by simp) (by simp)
  · refine (deliverAny_power _ _ _ _).trans ?_
    exact congrArg (fun q : PowerSequencer => { q with state := .dark, stopRequested := false }) (stopPass_power s)
  · refine (deliverAny_scan _ _ _ _).trans ?_
    exact congrArg State.scan hpass
  · refine (deliverAny_arb _ _ _ _).trans ?_
    show (stopPass s).arb = s.arb
    rw [hpass]
    rfl

/-- What the event leaves with demand present: the generator runs again in LOGIC_LEAD (R112, R144). -/
theorem takeTimingStopped_lead {s : State} (hs : TimingAgrees s) (h : demand s = true) :
    (takeTimingStopped s).timing =
        { s.timing with
          run := .running, period := .display, line := 0, part := .sync, stopPending := false,
          active := (takeTimingStopped s).layout.active.timing, pending := none } ∧
      (takeTimingStopped s).power =
        { s.power with state := .logicLead, stopRequested := false, frameCount := 0, target := s.power.lead } ∧
      AgedAs (passAlone s) (takeTimingStopped s) ∧
      SourcedAs (passAlone s) (takeTimingStopped s).fresh.staleSet 0 (takeTimingStopped s) ∧
      ToldMerged s (takeTimingStopped s)
        [powerToEach .dark ++ powerToEach .logicLead, stopOutcomes s ++ staleTold (passAlone s)] ∧
      (takeTimingStopped s).scan ≠ .none := by
  have hpass := stopPass_frame s
  have halone := passAlone_frame s
  have hagree : (stopPass s).layout.active.timing = (stopPass s).timing.pending.getD (stopPass s).timing.active :=
    stopPass_agrees hs
  have hlayout : (takeTimingStopped s).layout = (stopPass s).layout := by rw [takeTimingStopped_frame]
  have hevent := takeTimingStopped_demand h
  have hfresh : (takeTimingStopped s).fresh = (beginFrame (startedFrom (relit (stopPass s)))).1.fresh := by
    rw [hevent, settleSessions_frame]
    exact deliverAny_fresh _ _ _ _
  have hscan : (takeTimingStopped s).scan = (beginFrame (startedFrom (relit (stopPass s)))).1.scan := by
    rw [hevent, settleSessions_frame]
    exact deliverAny_scan _ _ _ _
  have harb : (takeTimingStopped s).arb = (beginFrame (startedFrom (relit (stopPass s)))).1.arb := by
    rw [hevent, settleSessions_frame]
    exact deliverAny_arb _ _ _ _
  have htiming : (takeTimingStopped s).timing = (beginFrame (startedFrom (relit (stopPass s)))).1.timing := by
    rw [hevent, settleSessions_frame]
    exact deliverAny_timing _ _ _ _
  refine ⟨?_, ?_, ?_, ?_, ?_, ?_⟩
  · rw [htiming, beginFrame_startedFrom_timing, hlayout, hagree]
    simp only [relit]
    rw [hpass]
    rfl
  · rw [hevent, settleSessions_frame]
    refine (deliverAny_power _ _ _ _).trans ?_
    rw [beginFrame_frame]
    exact congrArg
      (fun q : PowerSequencer => { q with state := .logicLead, stopRequested := false, frameCount := 0, target := q.lead })
      (stopPass_power s)
  · exact agedAs_of_beginFrame (s1 := startedFrom (relit (stopPass s))) (by rw [halone]; rfl) (by rw [halone]; rfl) hfresh
  · exact sourcedAs_of_beginFrame (s1 := startedFrom (relit (stopPass s))) (by rw [halone]; rfl) (by rw [halone]; rfl)
      (by rw [halone]; rfl) (by rw [halone]; rfl) hfresh hscan harb
  · have hstale : staleTold (passAlone s) = staleTold (startedFrom (relit (stopPass s))) := by
      rw [halone]
      rfl
    have hmerged : ToldMerged s (takeTimingStopped s)
        [powerToEach .dark ++ powerToEach .logicLead, stopOutcomes s ++ staleTold (passAlone s), []] := by
      refine toldMerged_of_deliverAny (u := (beginFrame (startedFrom (relit (stopPass s)))).1) ?_ (fun q => ?_) ?_
      · rw [beginFrame_frame]
        exact stopPass_notices s
      · rw [beginFrame_frame]
        exact iff_of_eq (congrArg (· = SessionState.opened) (stopPass_state s q))
      · rw [hevent, hstale]
        rfl
    exact hmerged.rename (by simp) (by simp)
  · rw [hscan]
    exact beginFrame_scan_ne_none _

/-- Settles O51: the pass, then the sequencer, with or without demand. -/
theorem timingStopsAtTheFrameEnd : Obligations.TimingStopsAtTheFrameEnd := by
  unfold Obligations.TimingStopsAtTheFrameEnd
  intro s hs hrun hpart hline hstop
  have hexec : exec .timingStopped s = .next (takeTimingStopped s) :=
    if_pos ⟨atFrameEnd_iff.2 ⟨⟨hrun, hpart⟩, hline⟩, hstop⟩
  have hframe := takeTimingStopped_frame s
  have halone := passAlone_frame s
  have hpass := stopPass_frame s
  refine ⟨takeTimingStopped s, passAlone s, hexec, passLeft_passAlone s, passedAs_passAlone hs, passAlone_notices s,
    ?_, ?_, ?_, ?_, ?_, ?_, ?_, ?_, fun hquiet => ?_, fun hdemand => ?_⟩
  · rw [halone, hpass]
    rfl
  · rw [hframe, hpass]
    rfl
  · rw [hframe, hpass]
    rfl
  · rw [hframe, hpass]
    rfl
  · rw [hframe, halone]
  · rw [hframe, halone]
  · rw [hframe, halone]
  · rw [hframe]
  · obtain ⟨htiming, hfresh, htold, hpower, hscan, harb⟩ := takeTimingStopped_dark hquiet
    refine ⟨htiming, hfresh, htold, hpower, hscan, harb, panelOutputs_stopped (by rw [htiming]), ?_⟩
    rw [logicEn_eq_decide, hpower]
    rfl
  · obtain ⟨htiming, hpower, haged, hsourced, htold, hscan⟩ := takeTimingStopped_lead hs.timing.agrees hdemand
    refine ⟨htiming, hpower, haged, hsourced, htold, hscan, ?_⟩
    rw [logicEn_eq_decide, hpower]
    rfl

end Sys2Proof.Machine
end


section
/-! PROOFS. What is applied while timing is stopped: at a SUBMIT and at the report that a job has finished (R23, R45, R103). -/

namespace Sys2Proof.Machine

theorem timingStopped_iff {s : State} : timingStopped s = true ↔ s.timing.run = .stopped := by
  cases h : s.timing.run <;> simp [timingStopped, h]

/-- While timing is stopped, the one transaction that is not held is applied and told (R45). -/
theorem applyIfStopped_single {s : State} {x : Transaction} {ahead behind : List QueueEntry} (hrun : s.timing.run = .stopped)
    (hqueue : s.layout.queue = ahead ++ .transaction x :: behind) (hawaited : x.awaited = [])
    (hheld : ∀ e ∈ ahead ++ behind, e.held = true) :
    applyIfStopped s = appliedAndTold x (s.setQueue (ahead ++ behind)) := by
  have hfilter : s.layout.queue.filter QueueEntry.held = ahead ++ behind := by
    have hx : (QueueEntry.transaction x).held = false := held_of_awaited_nil hawaited
    have hrest := filter_held_of_all hheld
    rw [List.filter_append] at hrest
    rw [hqueue, List.filter_append, List.filter_cons, hx]
    simpa using hrest
  have hpass : applicationPass s = applyTransaction x (s.setQueue (ahead ++ behind)) := by
    rw [applicationPass, hfilter, hqueue]
    exact applyEntries_single hheld (held_of_awaited_nil hawaited) _
  rw [applyIfStopped, if_pos (timingStopped_iff.2 hrun), hpass]
  rfl

/-! ### SUBMIT while timing is stopped (R23, R45) -/

/-- An application leaves an outcome in its port's queue (R40, R43). -/
theorem AppliedAs.queue_ne_nil {s t : State} {p : Port} {tag : Byte} {edits : List Edit} {frame : BitVec 16}
    (h : AppliedAs s p tag edits frame t) : (t.notices.get p).queue ≠ [] := by
  cases hedits : applyEdits p edits (Tentative.start s.layout.active) with
  | error k => exact List.ne_nil_of_mem (h.noBand k hedits).2
  | ok v =>
    cases hv : validate s v.copy with
    | some f =>
      obtain ⟨r, k⟩ := f
      exact List.ne_nil_of_mem (h.failed v r k hedits hv).2
    | none => exact List.ne_nil_of_mem (h.accepted v hedits hv).committed

theorem Lawful.mark_grant {s : State} (hs : Lawful s) (p : Port) :
    (s.pal.records.get p).unpublished = true → (s.pal.records.get p).grant ≠ none := fun hmark =>
  Option.isSome_iff_ne_none.1 ((hs.palette.record p).unpublished hmark)

/-- Settles O33: the queue holds held entries alone, so the entry that the SUBMIT builds is the one applied. -/
theorem submitWhileStoppedIsApplied : Obligations.SubmitWhileStoppedIsApplied := by
  unfold Obligations.SubmitWhileStoppedIsApplied
  intro s p tag flag hs hrun hadm hentry hunread hsome hflag hjobs
  have hopen : (s.sessions.get p).state = .opened := hadm.2.1
  have hexec : exec (.submit p) s = .next (submit p [tag, flag] s) := exec_of_admitted (submit p) rfl hadm rfl
  have hawaited : (builtEntry p tag (decide (num8 [tag, flag] 1 = 1)) s).awaited = [] := by
    have hwait : num8 [tag, flag] 1 = 1 ↔ flag = 1#8 := (byte_eq_one_iff flag).symm
    simp only [builtEntry, decide_eq_true_iff, hwait, jobsOf]
    split
    case isTrue h => simpa using hjobs h
    case isFalse => rfl
  obtain ⟨x, hx⟩ : ∃ x, builtEntry p tag (decide (num8 [tag, flag] 1 = 1)) s = x := ⟨_, rfl⟩
  have hport : x.port = p := by rw [← hx]; rfl
  have htag : x.tag = tag := by rw [← hx]; rfl
  have hedits : x.edits = s.layout.staging.get p := by rw [← hx]; rfl
  rw [hx] at hawaited
  have hheld : ∀ e ∈ s.layout.queue ++ [], e.held = true := by
    rw [List.append_nil]
    exact hs.queue.stopped hrun
  obtain ⟨u, hu⟩ : ∃ u, (enqueueEntry p x s).setQueue (s.layout.queue ++ []) = u := ⟨_, rfl⟩
  have hreply : submit p [tag, flag] s = Replied (appliedAndTold x u) p .ok [] := by
    have hchecked := submit_of_checked (s := s) (p := p) (pl := [tag, flag]) (by simpa using hentry) (by simpa using hunread)
      (fun h => hsome.elim (fun hne => hne h.1) (fun hmark => by simp [h.2] at hmark)) hflag
    have hfirst : ([tag, flag] : List Byte).getD 0 0#8 = tag := rfl
    rw [hchecked, hfirst, hx, applyIfStopped_single (s := enqueueEntry p x s) (ahead := s.layout.queue) (behind := [])
      hrun rfl hawaited hheld, hu, fillReply_eq_replied]
  obtain ⟨t, ht⟩ : ∃ t, Replied (appliedAndTold x u) p .ok [] = t := ⟨_, rfl⟩
  have hframe := appliedAndTold_frame hawaited u
  have happlied : AppliedAs s p tag (s.layout.staging.get p) s.timing.frameNumber t := by
    have hone := appliedAs_of_told (s := s) (u := u) (t := t) (x := x) (by rw [← hu]; exact ⟨rfl, rfl, rfl, rfl, rfl, rfl⟩)
      (by rw [← hu, hport]; exact PerPort.set_set _ _ _ _) hawaited (by rw [← ht]; exact ⟨⟨rfl, rfl⟩, rfl, rfl, rfl⟩)
      (by rw [← ht]; rfl) (by rw [hport]; exact hopen) (hs.mark_grant x.port)
    rw [hport, htag, hedits, ← hu] at hone
    exact hone
  refine ⟨t, by rw [hexec, hreply, ht], happlied, ?_⟩
  have hattention : (t.links.get p).slot.map Reply.attention = some true := by
    have hne := happlied.queue_ne_nil
    rw [← ht] at hne ⊢
    simp only [Replied, PerPort.get_set_same, Option.map_some]
    exact congrArg some (decide_eq_true hne)
  have hlinks : t.links = (Replied { s with notices := t.notices } p .ok []).links := by
    rw [← ht]
    refine replied_links_congr ?_
    rw [hframe, ← hu]
    rfl
  have hsub : ∀ q, (t.notices.get q).frameSub = (s.notices.get q).frameSub := fun q => by
    rw [← ht]
    refine (appliedAndTold_frameSub x u q).trans ?_
    rw [← hu]
    rfl
  refine ⟨?_, ?_, hlinks, hattention, ?_, ?_, ?_, ?_, ?_, ?_, ?_, ?_, hsub⟩ <;>
    · rw [← ht, hframe, ← hu]
      simp [Replied, enqueueEntry]

/-! ### The report that a job has finished (R45, R103) -/

theorem map_dropAwaited_eq_toldQueue (s : State) (j : Job) :
    s.layout.queue.map (QueueEntry.dropAwaited j.owner j.arrival) = toldQueue s j := by
  refine List.map_congr_left fun e _ => ?_
  cases e with
  | withdrawal q => rfl
  | transaction x =>
    simp only [QueueEntry.dropAwaited]
    by_cases hport : x.port = j.owner
    · simp [hport]
    · simp [hport]

/-- The layout controller takes the report (R103). -/
theorem jobReported_jobFinished {s : State} {j : Job}
    (hopen : ∀ x, QueueEntry.transaction x ∈ toldQueue s j → (s.sessions.get x.port).state = .opened)
    (hmark : ∀ q, (s.pal.records.get q).unpublished = true → (s.pal.records.get q).grant ≠ none) :
    JobReported s j (jobFinished j.owner j.arrival s) := by
  rw [jobFinished, map_dropAwaited_eq_toldQueue]
  constructor
  case waits =>
    rintro (hrun | hheld)
    · exact applyIfStopped_running hrun
    · exact applyIfStopped_of_held hheld
  case applied =>
    intro hrun x ahead behind hqueue hawaited hheld
    rw [applyIfStopped_single (s := s.setQueue (toldQueue s j)) hrun hqueue hawaited hheld]
    have hx : QueueEntry.transaction x ∈ toldQueue s j := by rw [hqueue]; simp
    refine ⟨appliedAs_of_told (s := s) (u := s.setQueue (ahead ++ behind)) ⟨rfl, rfl, rfl, rfl, rfl, rfl⟩ rfl hawaited
      (TablesLeft.refl _) rfl (hopen x hx) (hmark x.port), appliedAlone_told hawaited _, appliedAndTold_queue hawaited _⟩

end Sys2Proof.Machine
end


section
/-! PROOFS. JOB_CANCEL (R98 to R101), ROW_COMPLETION (R94, R97, R100) and SURF_FREE (R57 to R60). -/

namespace Sys2Proof.Machine

/-! ### Jobs by their place in the queue (R89) -/

theorem removeJob_of_split {j : Job} {behind : List Job} : ∀ {ahead : List Job}, j ∉ ahead →
    removeJob j (ahead ++ j :: behind) = ahead ++ behind
  | [], _ => removeJob_head j behind
  | k :: ahead, h => by
    obtain ⟨hne, hrest⟩ := List.ne_and_not_mem_of_not_mem_cons h
    rw [List.cons_append, removeJob, if_neg fun heq => hne heq.symm, removeJob_of_split hrest]
    rfl

theorem replaceJob_of_split {j j' : Job} {behind : List Job} : ∀ {ahead : List Job}, j ∉ ahead →
    replaceJob j j' (ahead ++ j :: behind) = ahead ++ j' :: behind
  | [], _ => replaceJob_head j j' behind
  | k :: ahead, h => by
    obtain ⟨hne, hrest⟩ := List.ne_and_not_mem_of_not_mem_cons h
    rw [List.cons_append, replaceJob, if_neg fun heq => hne heq.symm, replaceJob_of_split hrest]
    rfl

/-- A tag of a port names the one job that carries it. -/
theorem taggedJob_of_split {s : State} {p : Port} {tag : Byte} {ahead behind : List Job} {j : Job}
    (hjobs : s.engine.jobs = ahead ++ j :: behind) (howner : j.owner = p) (htag : j.tag = tag)
    (honly : ∀ k ∈ ahead ++ behind, ¬(k.owner = p ∧ k.tag = tag)) : taggedJob s p tag = some j := by
  refine taggedJob_eq_some (by rw [hjobs]; simp) howner htag fun k hk hko hkt => ?_
  rw [hjobs] at hk
  have hk : k ∈ ahead ++ behind ∨ k = j := by
    simp only [List.mem_append, List.mem_cons] at hk ⊢
    tauto
  exact hk.resolve_left fun hk => honly k hk ⟨hko, hkt⟩

/-! ### The pending-abort flags (R60) -/

/-- A handle names the surface of an entry (R50). -/
def NamedByHandles (s : State) (hs : List Handle) (i : Fin 32) : Prop :=
  (s.alloc.table.get i).state ≠ .free ∧ ∃ h ∈ hs, h.index = i ∧ h.gen = (s.alloc.table.get i).gen

theorem namedBy_iff {s : State} {j : Job} {i : Fin 32} : NamedBy s j i ↔ NamedByHandles s j.handles i := Iff.rfl

/-- The surface that one handle names takes the flag. -/
def flagSurface (flag : Bool) (h : Handle) (s : State) : State :=
  match namedSurface s.alloc.table h with
  | some e => s.setEntry h.index { e with pendingAbort := flag }
  | none => s

theorem setAbortFlags_cons (flag : Bool) (h : Handle) (hs : List Handle) (s : State) :
    setAbortFlags flag (h :: hs) s = setAbortFlags flag hs (flagSurface flag h s) := rfl

theorem flagSurface_get_named {flag : Bool} {h : Handle} {s : State} {i : Fin 32} (hfree : (s.alloc.table.get i).state ≠ .free)
    (hi : h.index = i) (hgen : h.gen = (s.alloc.table.get i).gen) :
    (flagSurface flag h s).alloc.table.get i = { s.alloc.table.get i with pendingAbort := flag } := by
  subst hi
  rw [flagSurface, namedSurface_eq_some.2 ⟨rfl, hfree, hgen.symm⟩]
  exact (vector_get_set _ _ _ _).trans (if_pos rfl)

theorem flagSurface_get_other {flag : Bool} {h : Handle} {s : State} {i : Fin 32}
    (hnot : ¬((s.alloc.table.get i).state ≠ .free ∧ h.index = i ∧ h.gen = (s.alloc.table.get i).gen)) :
    (flagSurface flag h s).alloc.table.get i = s.alloc.table.get i := by
  unfold flagSurface
  split
  case h_1 e he =>
    obtain ⟨rfl, hfree, hgen⟩ := namedSurface_eq_some.1 he
    refine (vector_get_set _ _ _ _).trans (if_neg fun heq => hnot ?_)
    subst heq
    exact ⟨hfree, rfl, hgen.symm⟩
  case h_2 => rfl

theorem flagSurface_keeps (flag : Bool) (h : Handle) (s : State) (i : Fin 32) :
    ((flagSurface flag h s).alloc.table.get i).state = (s.alloc.table.get i).state ∧
      ((flagSurface flag h s).alloc.table.get i).gen = (s.alloc.table.get i).gen ∧
      (flagSurface flag h s).alloc.table.get i =
        { s.alloc.table.get i with pendingAbort := ((flagSurface flag h s).alloc.table.get i).pendingAbort } := by
  by_cases hnamed : (s.alloc.table.get i).state ≠ .free ∧ h.index = i ∧ h.gen = (s.alloc.table.get i).gen
  · obtain ⟨hfree, hi, hgen⟩ := hnamed
    rw [flagSurface_get_named hfree hi hgen]
    exact ⟨rfl, rfl, rfl⟩
  · rw [flagSurface_get_other hnamed]
    exact ⟨rfl, rfl, rfl⟩

/-- Each surface that a handle names takes the flag, and no other entry changes (R60). -/
theorem setAbortFlags_get (flag : Bool) (i : Fin 32) : ∀ (hs : List Handle) (s : State),
    (NamedByHandles s hs i →
      (setAbortFlags flag hs s).alloc.table.get i = { s.alloc.table.get i with pendingAbort := flag }) ∧
    (¬NamedByHandles s hs i → (setAbortFlags flag hs s).alloc.table.get i = s.alloc.table.get i)
  | [], s => ⟨fun ⟨_, _, hmem, _⟩ => absurd hmem List.not_mem_nil, fun _ => rfl⟩
  | h :: hs, s => by
    obtain ⟨hset, hkept⟩ := setAbortFlags_get flag i hs (flagSurface flag h s)
    obtain ⟨hstate, hgen, hsame⟩ := flagSurface_keeps flag h s i
    have hrest : NamedByHandles (flagSurface flag h s) hs i ↔ NamedByHandles s hs i := by
      rw [NamedByHandles, NamedByHandles, hstate, hgen]
    have hcons : NamedByHandles s (h :: hs) i ↔
        ((s.alloc.table.get i).state ≠ .free ∧ h.index = i ∧ h.gen = (s.alloc.table.get i).gen) ∨ NamedByHandles s hs i := by
      simp only [NamedByHandles, List.mem_cons, exists_eq_or_imp, and_or_left]
    rw [setAbortFlags_cons, hcons]
    by_cases hlater : NamedByHandles s hs i
    · refine ⟨fun _ => ?_, fun hnot => absurd (.inr hlater) hnot⟩
      rw [hset (hrest.2 hlater), hsame]
    · rw [hkept (mt hrest.1 hlater)]
      refine ⟨fun hnamed => ?_, fun hnot => flagSurface_get_other fun h => hnot (.inl h)⟩
      obtain ⟨hfree, hi, hg⟩ := hnamed.resolve_right hlater
      exact flagSurface_get_named hfree hi hg

/-- The flags are all that setting them changes of the allocator. -/
theorem setAbortFlags_alloc (flag : Bool) : ∀ (hs : List Handle) (s : State),
    (setAbortFlags flag hs s).alloc = { s.alloc with table := (setAbortFlags flag hs s).alloc.table }
  | [], _ => rfl
  | h :: hs, s => by
    rw [setAbortFlags_cons, setAbortFlags_alloc flag hs]
    unfold flagSurface
    split <;> rfl

theorem beginAbort_running {j : Job} {s : State} (h : j.state = .running) :
    beginAbort j s =
      setAbortFlags true j.handles (s.setJobs (replaceJob j { j with state := .aborting } s.engine.jobs)) := by
  simp only [beginAbort, h]

/-! ### JOB_CANCEL (R98) -/

theorem mem_toldQueue_transaction {s : State} {j : Job} {x : Transaction} (hx : QueueEntry.transaction x ∈ toldQueue s j) :
    ∃ y, QueueEntry.transaction y ∈ s.layout.queue ∧ y.port = x.port := by
  obtain ⟨e, he, heq⟩ := List.mem_map.1 hx
  cases e with
  | withdrawal q => cases heq
  | transaction y =>
    cases heq
    exact ⟨y, he, rfl⟩

/-- The report on a job, in a state that has kept the queue, the sessions and the palette of a lawful one. -/
theorem jobReported_of_lawful {s u : State} {j : Job} (hs : Lawful s) (hqueue : u.layout.queue = s.layout.queue)
    (hsessions : ∀ q, (s.sessions.get q).state = .opened → (u.sessions.get q).state = .opened) (hpal : u.pal = s.pal) :
    JobReported u j (jobFinished j.owner j.arrival u) := by
  refine jobReported_jobFinished (fun x hx => ?_) (by rw [hpal]; exact hs.mark_grant)
  obtain ⟨y, hy, hport⟩ := mem_toldQueue_transaction hx
  rw [hqueue] at hy
  rw [← hport]
  exact hsessions _ (hs.queue.entry _ hy).1

/-- Settles O39: the job that the tag names, by its state. -/
theorem jobCancelActs : Obligations.JobCancelActs := by
  unfold Obligations.JobCancelActs
  intro s p tag hadm
  have hopen : (s.sessions.get p).state = .opened := hadm.2.1
  have hexec : exec (.jobCancel p) s = .next (jobCancel p [tag] s) := exec_of_admitted (jobCancel p) rfl hadm rfl
  rw [hexec]
  refine ⟨fun hnone => ?_, fun ahead j behind hjobs howner htag honly => ?_⟩
  · have htagged : taggedJob s p tag = none := taggedJob_eq_none fun k hk => by
      obtain ⟨hk, howner⟩ := List.mem_filter.1 hk
      exact hnone k hk (of_decide_eq_true howner)
    simp only [jobCancel, List.getD_cons_zero, htagged, fillReply_eq_replied]
  · have htagged := taggedJob_of_split hjobs howner htag honly
    have hahead : j ∉ ahead := fun hj => honly j (List.mem_append_left _ hj) ⟨howner, htag⟩
    simp only [jobCancel, List.getD_cons_zero, htagged]
    refine ⟨fun hqueued hs => ?_, fun hrunning => ?_, fun haborting => ?_⟩
    · simp only [hqueued, fillReply_eq_replied]
      refine ⟨cancelJob j s, rfl, ?_⟩
      have htold : post (j.owner, .jobCancelled j.tag) (s.setJobs (removeJob j s.engine.jobs)) =
          { s with
            engine := { s.engine with jobs := ahead ++ behind }
            notices := s.notices.set p ((s.notices.get p).take (.jobCancelled tag)) } := by
        rw [post_of_open (by rw [howner]; exact hopen), hjobs, removeJob_of_split hahead, howner, htag]
        rfl
      rw [cancelJob, htold]
      exact jobReported_of_lawful hs rfl (fun _ h => h) rfl
    · simp only [hrunning, fillReply_eq_replied]
      refine ⟨_, rfl, ?_, ?_, fun i => ?_⟩
      · rw [beginAbort_running hrunning, hjobs, replaceJob_of_split hahead, setAbortFlags_frame]
        rfl
      · rw [beginAbort_running hrunning]
        exact setAbortFlags_alloc _ _ _
      · rw [beginAbort_running hrunning]
        exact setAbortFlags_get true i j.handles (s.setJobs (replaceJob j { j with state := .aborting } s.engine.jobs))
    · simp only [haborting, fillReply_eq_replied]

end Sys2Proof.Machine
end


section
/-! PROOFS. ROW_COMPLETION: rows counted, and the end of the running job (R60, R62, R93, R94, R97, R100, R103). -/

namespace Sys2Proof.Machine

/-! ### An application read in another state (R40 to R43) -/

/-- What a transaction's application says, read in states that agree on the tables and the notices. -/
theorem AppliedAs.congr {s s' t t' : State} {p : Port} {tag : Byte} {edits : List Edit} {frame : BitVec 16}
    (h : AppliedAs s p tag edits frame t) (hactive : s'.layout.active = s.layout.active)
    (hrecord : s'.layout.record = s.layout.record) (halloc : s'.alloc = s.alloc) (hpal : s'.pal = s.pal)
    (hfresh : s'.fresh = s.fresh) (hpending : s'.timing.pending = s.timing.pending)
    (hsessions : ∀ q, (s'.sessions.get q).state = .opened → (s.sessions.get q).state = .opened) (ht : TablesLeft t t')
    (hnotices : t'.notices = t.notices) : AppliedAs s' p tag edits frame t' := by
  obtain ⟨⟨htactive, htrecord⟩, htpal, htfresh, htpending⟩ := ht
  have hkept : LayoutKept s t → LayoutKept s' t' := fun ⟨ha, hp, hl, hf⟩ =>
    ⟨(htactive.trans ha).trans hactive.symm, (htpending.trans hp).trans hpending.symm, (htpal.trans hl).trans hpal.symm,
      (htfresh.trans hf).trans hfresh.symm⟩
  have hvalidate : ∀ l, validate s l = validate s' l := fun l => (validate_congr (by rw [halloc]) hpal l).symm
  obtain ⟨hrec, hno, hfail, hacc⟩ := h
  rw [← hactive] at hno hfail hacc
  constructor
  case record => rw [htrecord, hrec, hrecord]
  case noBand =>
    intro k hk
    obtain ⟨hk1, hk2⟩ := hno k hk
    exact ⟨hkept hk1, by rw [hnotices]; exact hk2⟩
  case failed =>
    intro v r k hv hr
    obtain ⟨hk1, hk2⟩ := hfail v r k hv ((hvalidate _).trans hr)
    exact ⟨hkept hk1, by rw [hnotices]; exact hk2⟩
  case accepted =>
    intro v hv hr
    obtain ⟨hlayout, htiming, hpublished, hdraft, hrecords, hkeys, hfreshes, hstale, hcommitted, hevicted⟩ :=
      hacc v hv ((hvalidate _).trans hr)
    refine ⟨htactive.trans hlayout, ?_, ?_, ?_, ?_, ?_, ?_, ?_, ?_, fun k hk hgone hopen => ?_⟩
    · rw [htpending, htiming, hpending]
    · rw [htpal, hpal]
      exact hpublished
    · rw [htpal, hdraft, hpal]
    · rw [htpal, hrecords, hpal]
    · rw [htfresh, hkeys]
    · rw [htfresh, hfresh]
      exact hfreshes
    · rw [htfresh, hstale, hfresh]
    · rw [hnotices]
      exact hcommitted
    · rw [hnotices]
      exact hevicted k hk hgone (hsessions _ hopen)

/-- A report read in states that differ in the engine, the arbiter, the allocator and the sessions, each as the other has it. -/
theorem JobReported.congr {v t' u t : State} {j : Job} (h : JobReported v j t')
    (hu : u = { v with engine := u.engine, arb := u.arb, sessions := u.sessions })
    (hsessions : ∀ q, (u.sessions.get q).state = .opened → (v.sessions.get q).state = .opened)
    (ht : t = { t' with engine := u.engine, arb := u.arb, sessions := u.sessions }) : JobReported u j t := by
  have hqueue : toldQueue u j = toldQueue v j := by rw [hu]; rfl
  obtain ⟨hwaits, happlied⟩ := h
  constructor
  case waits =>
    intro hcase
    rw [hqueue] at hcase ⊢
    have hrun : u.timing = v.timing := by rw [hu]
    rw [hrun] at hcase
    rw [ht, hwaits hcase, hu]
  case applied =>
    intro hrun x ahead behind hsplit hawaited hheld
    have htiming : u.timing = v.timing := by rw [hu]
    rw [hqueue] at hsplit
    rw [htiming] at hrun ⊢
    obtain ⟨hone, ⟨hblocks, halonetiming, hsubs⟩, hleft⟩ := happlied hrun x ahead behind hsplit hawaited hheld
    obtain ⟨hlinks, -, halloc, hstore, -, -, hscan, hpower, hstaging⟩ := hblocks
    refine ⟨hone.congr (by rw [hu]) (by rw [hu]) (by rw [hu]) (by rw [hu]) (by rw [hu]) (by rw [hu]) hsessions
      (by rw [ht]; exact ⟨⟨rfl, rfl⟩, rfl, rfl, rfl⟩) (by rw [ht]), ⟨⟨?_, ?_, ?_, ?_, ?_, ?_, ?_, ?_, ?_⟩, ?_, fun q => ?_⟩, ?_⟩
    · rw [ht, hu]
      exact hlinks
    · rw [ht]
    · rw [ht, hu]
      exact halloc
    · rw [ht, hu]
      exact hstore
    · rw [ht]
    · rw [ht]
    · rw [ht, hu]
      exact hscan
    · rw [ht, hu]
      exact hpower
    · rw [ht, hu]
      exact hstaging
    · rw [ht, hu]
      exact halonetiming
    · rw [ht, hu]
      exact hsubs q
    · rw [ht]
      exact hleft

/-! ### The report that a job has stopped running (R60, R62) -/

/-- The allocator with the flags cleared and the surfaces freed, before it reports. -/
def freedForStop (hs : List Handle) (s : State) : State :=
  (List.finRange 32).foldl (fun t i => if freedAtStop t hs i then freeSurface i t else t) (setAbortFlags false hs s)

theorem jobStopReport_eq (owner : Port) (hs : List Handle) (s : State) :
    jobStopReport owner hs s = surfacesReport owner (freedForStop hs s) := rfl

theorem freedForStop_frame (hs : List Handle) (s : State) :
    freedForStop hs s = { s with alloc := (freedForStop hs s).alloc } := by
  unfold freedForStop
  rw [freeFold_frame (fun t i => freedAtStop t hs i), setAbortFlags_frame]

theorem freedForStop_marks (hs : List Handle) (s : State) :
    (freedForStop hs s).alloc.quota = s.alloc.quota ∧ (freedForStop hs s).alloc.withdrawalOut = s.alloc.withdrawalOut ∧
      (freedForStop hs s).alloc.reportOwed = s.alloc.reportOwed := by
  have hflags := setAbortFlags_alloc false hs s
  rw [freedForStop]
  obtain ⟨hquota, hout, howed⟩ := freeFold_marks (fun t i => freedAtStop t hs i) (List.finRange 32) (setAbortFlags false hs s)
  rw [hquota, hout, howed, hflags]
  exact ⟨rfl, rfl, rfl⟩

theorem freedAtStop_iff {s : State} {hs : List Handle} {i : Fin 32} : freedAtStop s hs i = true ↔
    NamedByHandles s hs i ∧ (s.alloc.table.get i).state = .retiring ∧
      s.alloc.withdrawalOut.get (s.alloc.table.get i).owner = false := by
  simp only [freedAtStop, Bool.and_eq_true, decide_eq_true_iff, List.any_eq_true, Bool.not_eq_true', NamedByHandles]
  constructor
  · rintro ⟨⟨hret, h, hmem, hi, hgen⟩, hout⟩
    exact ⟨⟨by rw [hret]; decide, h, hmem, hi, hgen⟩, hret, hout⟩
  · rintro ⟨⟨-, h, hmem, hi, hgen⟩, hret, hout⟩
    exact ⟨⟨hret, h, hmem, hi, hgen⟩, hout⟩

/-- What the end of a job's running does to each entry (R60). -/
theorem freedForStop_get (hs : List Handle) (s : State) (i : Fin 32) :
    (¬NamedByHandles s hs i → (freedForStop hs s).alloc.table.get i = s.alloc.table.get i) ∧
    (NamedByHandles s hs i → (s.alloc.table.get i).state = .retiring →
      s.alloc.withdrawalOut.get (s.alloc.table.get i).owner = false →
      (freedForStop hs s).alloc.table.get i = { s.alloc.table.get i with state := .free, pendingAbort := false }) ∧
    (NamedByHandles s hs i →
      ¬((s.alloc.table.get i).state = .retiring ∧ s.alloc.withdrawalOut.get (s.alloc.table.get i).owner = false) →
      (freedForStop hs s).alloc.table.get i = { s.alloc.table.get i with pendingAbort := false }) := by
  have hfold := freeFold_table_get (cond := fun t i => freedAtStop t hs i)
    (fun t t' i hget hout => by simp only [freedAtStop, hget, hout]) i (List.finRange 32) (setAbortFlags false hs s)
    (List.nodup_finRange 32)
  rw [← freedForStop] at hfold
  obtain ⟨hset, hkept⟩ := setAbortFlags_get false i hs s
  have hout : (setAbortFlags false hs s).alloc.withdrawalOut = s.alloc.withdrawalOut := by rw [setAbortFlags_alloc]
  have hcond : freedAtStop (setAbortFlags false hs s) hs i = true ↔ NamedByHandles s hs i ∧
      (s.alloc.table.get i).state = .retiring ∧ s.alloc.withdrawalOut.get (s.alloc.table.get i).owner = false := by
    rw [freedAtStop_iff, hout]
    by_cases hnamed : NamedByHandles s hs i
    · simp only [NamedByHandles, hset hnamed]
    · simp only [NamedByHandles, hkept hnamed]
  refine ⟨fun hnot => ?_, fun hnamed hret hfree => ?_, fun hnamed hnot => ?_⟩
  · exact hfold.trans ((if_neg fun h => hnot (hcond.1 h.2).1).trans (hkept hnot))
  · refine hfold.trans ((if_pos ⟨List.mem_finRange i, hcond.2 ⟨hnamed, hret, hfree⟩⟩).trans ?_)
    rw [hset hnamed]
  · exact hfold.trans ((if_neg fun h => hnot (hcond.1 h.2).2).trans (hset hnamed))

/-- What the report that a job has stopped does to each entry (R60). -/
theorem jobStopReport_get (owner : Port) (hs : List Handle) (s : State) (i : Fin 32) :
    (¬NamedByHandles s hs i → (jobStopReport owner hs s).alloc.table.get i = s.alloc.table.get i) ∧
    (NamedByHandles s hs i → (s.alloc.table.get i).state = .retiring →
      s.alloc.withdrawalOut.get (s.alloc.table.get i).owner = false →
      (jobStopReport owner hs s).alloc.table.get i = { s.alloc.table.get i with state := .free, pendingAbort := false }) ∧
    (NamedByHandles s hs i →
      ¬((s.alloc.table.get i).state = .retiring ∧ s.alloc.withdrawalOut.get (s.alloc.table.get i).owner = false) →
      (jobStopReport owner hs s).alloc.table.get i = { s.alloc.table.get i with pendingAbort := false }) := by
  rw [jobStopReport_eq, surfacesReport_table]
  exact freedForStop_get hs s i

/-- The report is due when the withdrawal is applied and the job named every RETIRING surface of the port (R62). -/
theorem jobStopReport_session_due {owner : Port} {hs : List Handle} {s : State} (howed : s.alloc.reportOwed.get owner = true)
    (hout : s.alloc.withdrawalOut.get owner = false)
    (hall : ∀ i : Fin 32, (s.alloc.table.get i).state = .retiring → (s.alloc.table.get i).owner = owner →
      NamedByHandles s hs i) :
    (jobStopReport owner hs s).sessions.get owner = { s.sessions.get owner with surfacesPending := false } := by
  obtain ⟨-, hmarkOut, hmarkOwed⟩ := freedForStop_marks hs s
  have hnone : noRetiring (freedForStop hs s) owner = true := noRetiring_iff.2 fun i hret hown => by
    obtain ⟨hother, hfreed, hcleared⟩ := freedForStop_get hs s i
    by_cases hnamed : NamedByHandles s hs i
    · by_cases hfree : (s.alloc.table.get i).state = .retiring ∧ s.alloc.withdrawalOut.get (s.alloc.table.get i).owner = false
      · rw [hfreed hnamed hfree.1 hfree.2] at hret
        cases hret
      · rw [hcleared hnamed hfree] at hret hown
        have hown : (s.alloc.table.get i).owner = owner := hown
        exact hfree ⟨hret, by rw [hown]; exact hout⟩
    · rw [hother hnamed] at hret hown
      exact hnamed (hall i hret hown)
  rw [jobStopReport_eq, surfacesReport_due (by rw [hmarkOwed]; exact howed) (by rw [hmarkOut]; exact hout) hnone]
  simp only [PerPort.get_set_same]
  rw [freedForStop_frame]

/-! ### Applications while timing is stopped touch no surface (R45) -/

theorem applyEntries_of_transactions {es : List QueueEntry} : ∀ {s : State}, (∀ e ∈ es, ∃ x, e = .transaction x) →
    (applyEntries es s).1.alloc = s.alloc ∧ (applyEntries es s).1.sessions = s.sessions := by
  induction es with
  | nil => exact fun _ => ⟨rfl, rfl⟩
  | cons e es ih =>
    intro s h
    have hrest : ∀ e ∈ es, ∃ x, e = .transaction x := fun e he => h e (List.mem_cons_of_mem _ he)
    rw [applyEntries]
    split
    · exact ih hrest
    · obtain ⟨x, rfl⟩ := h e (List.mem_cons_self ..)
      obtain ⟨halloc, hsessions⟩ := ih (s := (applyTransaction x s).1) hrest
      refine ⟨halloc.trans ?_, hsessions.trans (applyTransaction_sessions x s)⟩
      rw [applyTransaction_frame]

/-- Timing runs, or the queue holds no withdrawal: a withdrawal is applied as it arrives in STOPPED (R45). -/
def NoWithdrawalStopped (s : State) : Prop := s.timing.run = .stopped → ∀ e ∈ s.layout.queue, ∃ x, e = .transaction x

theorem QueueLaw.noWithdrawalStopped {s : State} (h : QueueLaw s) : NoWithdrawalStopped s := fun hrun e he => by
  cases e with
  | transaction x => exact ⟨x, rfl⟩
  | withdrawal p => cases h.stopped hrun _ he

theorem jobFinished_of_transactions {s : State} (p : Port) (n : BitVec 16) (h : NoWithdrawalStopped s) :
    (jobFinished p n s).alloc = s.alloc ∧ (jobFinished p n s).sessions = s.sessions := by
  cases hrun : s.timing.run with
  | running =>
    rw [jobFinished_running p n hrun]
    exact ⟨rfl, rfl⟩
  | stopped =>
    have hkinds : ∀ e ∈ s.layout.queue.map (QueueEntry.dropAwaited p n), ∃ x, e = .transaction x := fun e he => by
      obtain ⟨e0, he0, rfl⟩ := List.mem_map.1 he
      obtain ⟨x, rfl⟩ := h hrun e0 he0
      exact ⟨_, rfl⟩
    obtain ⟨halloc, hsessions⟩ := applyEntries_of_transactions
      (s := (s.setQueue (s.layout.queue.map (QueueEntry.dropAwaited p n))).setQueue
        ((s.layout.queue.map (QueueEntry.dropAwaited p n)).filter QueueEntry.held)) hkinds
    have hstopped : timingStopped (s.setQueue (s.layout.queue.map (QueueEntry.dropAwaited p n))) = true :=
      timingStopped_iff.2 hrun
    rw [jobFinished, applyIfStopped, if_pos hstopped]
    simp only [deliver_alloc, deliver_sessions]
    exact ⟨halloc, hsessions⟩

/-! ### The jobs behind (R93) -/

/-- When no job runs, the oldest QUEUED job starts (R93). -/
theorem startNextJob_of_queued {s : State} (h : ∀ k ∈ s.engine.jobs, k.state = .queued) (hrow : s.arb.engineRow = false) :
    startNextJob s =
      { s with
        engine := { s.engine with jobs := promoted s.engine.jobs }
        arb := { s.arb with engineRow := decide (promoted s.engine.jobs ≠ []) } } := by
  have hnone := runningJob_queued h
  unfold startNextJob
  rw [hnone]
  dsimp only
  cases hjobs : s.engine.jobs with
  | nil =>
    have hsame : s =
        { s with engine := { s.engine with jobs := [] }, arb := { s.arb with engineRow := false } } := by
      rw [← hjobs, ← hrow]
    exact hsame
  | cons k rest => rfl

/-! ### The end of the running job (R97, R100) -/

theorem freeFold_of_none {cond : State → Fin 32 → Bool} : ∀ {is : List (Fin 32)} {s : State}, (∀ i, cond s i = false) →
    is.foldl (fun t i => if cond t i then freeSurface i t else t) s = s
  | [], _, _ => rfl
  | i :: is, s, h => by
    rw [List.foldl_cons, h i]
    exact freeFold_of_none h

theorem setAbortFlags_of_same {flag : Bool} : ∀ {hs : List Handle} {s : State},
    (∀ i : Fin 32, (s.alloc.table.get i).pendingAbort = flag) → setAbortFlags flag hs s = s
  | [], _, _ => rfl
  | h :: hs, s, hflags => by
    have hsame : flagSurface flag h s = s := by
      unfold flagSurface
      split
      case h_1 e he =>
        obtain ⟨rfl, -, -⟩ := namedSurface_eq_some.1 he
        have hentry : ({ s.alloc.table.get h.index with pendingAbort := flag } : SurfEntry) = s.alloc.table.get h.index := by
          rw [← hflags h.index]
        rw [hentry, State.setEntry]
        have hset : s.alloc.table.set h.index.val (s.alloc.table.get h.index) h.index.isLt = s.alloc.table :=
          Vector.set_getElem_self _
        rw [hset]
      case h_2 => rfl
    rw [setAbortFlags_cons, hsame]
    exact setAbortFlags_of_same hflags

/-- Every job but the running one is QUEUED (R93). -/
theorem EngineLaw.rest_queued {s : State} (h : EngineLaw s) {j : Job} {rest : List Job} (hjobs : s.engine.jobs = j :: rest) :
    ∀ k ∈ rest, k.state = .queued := by
  have hhead := h.head
  rw [hjobs] at hhead
  exact hhead.2

/-- While no job is being aborted no surface carries the flag (R60). -/
theorem Lawful.unflagged {s : State} (hs : Lawful s) (hnone : ∀ k ∈ s.engine.jobs, k.state ≠ .aborting) (i : Fin 32) :
    (s.alloc.table.get i).pendingAbort = false := by
  refine Bool.eq_false_iff.2 fun hflag => ?_
  obtain ⟨-, habort⟩ := (hs.surface.entry i).flagged.1 hflag
  obtain ⟨k, hk, hkabort⟩ := List.any_eq_true.1 habort
  exact hnone k hk (of_decide_eq_true (Bool.and_eq_true _ _ ▸ hkabort).1)

/-- Each surface that a job names is one the job reads or writes (R60, R90). -/
theorem JobOk.surface {s : State} {j : Job} (hj : JobOk s j) {h : Handle} (hmem : h ∈ j.handles) :
    ∃ x y, JobSurface s j h x y := by
  have hkind := hj.kind
  unfold Job.handles at hmem
  unfold JobKindOk at hkind
  split at hmem
  · rw [List.mem_singleton.1 hmem]
    exact ⟨_, _, hj.dest⟩
  case h_2 src sx sy hcopy =>
    rw [hcopy] at hkind
    simp only [List.mem_cons, List.not_mem_nil, or_false] at hmem
    obtain rfl | rfl := hmem
    · exact ⟨_, _, hj.dest⟩
    · exact ⟨_, _, hkind.1⟩

/-- The surfaces that a job names are the owner's, and LIVE unless the job is being aborted (R90, R99 to R102). -/
theorem JobOk.named_live {s : State} {j : Job} (hj : JobOk s j) (hstate : j.state ≠ .aborting) {i : Fin 32}
    (hnamed : NamedBy s j i) : (s.alloc.table.get i).state = .live := by
  obtain ⟨-, h, hmem, rfl, -⟩ := hnamed
  obtain ⟨x, y, e, he, -, hlive, -, -⟩ := hj.surface hmem
  obtain ⟨rfl, -, -⟩ := namedSurface_eq_some.1 he
  exact hlive hstate

/-- The report that a job has stopped changes nothing when the job ran to its end (R60, R62). -/
theorem jobStopReport_running {s v : State} (hs : Lawful s) {j : Job} {rest : List Job} (hjobs : s.engine.jobs = j :: rest)
    (hrunning : j.state = .running) (halloc : v.alloc = s.alloc) : jobStopReport j.owner j.handles v = v := by
  have hj : j ∈ s.engine.jobs := by rw [hjobs]; exact List.mem_cons_self
  have hnone : ∀ k ∈ s.engine.jobs, k.state ≠ .aborting := fun k hk => by
    rw [hjobs] at hk
    obtain rfl | hk := List.mem_cons.1 hk
    · rw [hrunning]
      decide
    · rw [hs.engine.rest_queued hjobs k hk]
      decide
  have hflags : ∀ i : Fin 32, (v.alloc.table.get i).pendingAbort = false := by
    rw [halloc]
    exact hs.unflagged hnone
  have hlive : ∀ i, NamedByHandles v j.handles i → (v.alloc.table.get i).state = .live := fun i hnamed => by
    rw [NamedByHandles, halloc] at hnamed
    rw [halloc]
    exact (hs.engine.job j hj).named_live (hnone j hj) hnamed
  have hfreed : freedForStop j.handles v = v := by
    rw [freedForStop, setAbortFlags_of_same hflags]
    refine freeFold_of_none (cond := fun t i => freedAtStop t j.handles i) fun i => Bool.eq_false_iff.2 fun hcond => ?_
    obtain ⟨hnamed, hret, -⟩ := freedAtStop_iff.1 hcond
    rw [hlive i hnamed] at hret
    cases hret
  have hopen : (s.sessions.get j.owner).state = .opened := by
    obtain ⟨hopen, -⟩ | ⟨-, -, habort⟩ := (hs.engine.job j hj).owner
    · exact hopen
    · exact absurd habort (hnone j hj)
  have hclear : s.alloc.reportOwed.get j.owner = false := by
    rw [(hs.surface.marks j.owner).2.1]
    refine Bool.eq_false_iff.2 fun hmark => ?_
    have hclosing := (hs.queue.session j.owner).marks.2 (.inr hmark)
    rw [hopen] at hclosing
    cases hclosing
  rw [jobStopReport_eq, hfreed, surfacesReport_not_due]
  rintro ⟨howed, -, -⟩
  rw [halloc, hclear] at howed
  cases howed

/-- The state in which the running job is out, and the store free, before anything is told. -/
def jobOut (s : State) (rest : List Job) : State :=
  { s with engine := { s.engine with jobs := rest }, arb := { s.arb with busy := none } }

/-- The end of the running job, from the completion of its last row (R97, R100). -/
theorem endJob_head {s : State} {j : Job} {rest : List Job} {n : Notice} (hjobs : s.engine.jobs = j :: rest) :
    endJob { j with rowsDone := j.rowsDone + 1 } n
        ((freeStore s).setJobs (replaceJob j { j with rowsDone := j.rowsDone + 1 } (freeStore s).engine.jobs)) =
      startNextJob
        (jobFinished j.owner j.arrival
          (jobStopReport j.owner j.handles
            (if j.notify then post (j.owner, n) (jobOut s rest) else jobOut s rest))) := by
  have hreplace : replaceJob j { j with rowsDone := j.rowsDone + 1 } (freeStore s).engine.jobs =
      { j with rowsDone := j.rowsDone + 1 } :: rest := by
    rw [show (freeStore s).engine.jobs = j :: rest from hjobs, replaceJob_head]
  rw [hreplace, endJob]
  simp only [State.setJobs_engine, removeJob_head]
  rfl

/-- While the running job's row is served, no row waits at the arbiter (R94). -/
theorem engineRow_of_served {s : State} (hs : Lawful s) (hbusy : s.arb.busy = some (.engineRow false)) :
    s.arb.engineRow = false := by
  refine Bool.eq_false_iff.2 fun hrow => hs.engine.row.2 ⟨hrow, ?_⟩
  rw [hbusy]
  rfl

theorem exec_rowCompletion_head {s : State} (hs : Lawful s) {j : Job} {rest : List Job} (hjobs : s.engine.jobs = j :: rest)
    (hbusy : s.arb.busy = some (.engineRow false)) :
    exec .rowCompletion s = .next (settleSessions (rowDone j (freeStore s))) := by
  have hrunning : runningJob s.engine.jobs = some j := hs.engine.runningJob_eq hjobs
  have hexec : exec .rowCompletion s = execRowCompletion s := rfl
  rw [hexec, execRowCompletion, hbusy]
  simp only [Bool.false_eq_true, if_false, hrunning]

/-- The job that starts next, in a state that has kept the jobs behind and the arbiter (R93). -/
theorem startNextJob_after {s t : State} {rest : List Job} (hqueued : ∀ k ∈ rest, k.state = .queued)
    (hrow : s.arb.engineRow = false) (hengine : t.engine = (jobOut s rest).engine) (harb : t.arb = (jobOut s rest).arb) :
    startNextJob t =
      { t with
        engine := { s.engine with jobs := promoted rest }
        arb := { s.arb with busy := none, engineRow := decide (promoted rest ≠ []) } } := by
  rw [startNextJob_of_queued (by rw [hengine]; exact hqueued) (by rw [harb]; exact hrow), hengine, harb]
  rfl

theorem settleSessions_of_same {s t : State} (hs : QueueLaw s) (ht : t.sessions = s.sessions) : settleSessions t = t := by
  have hmap : t.sessions.map settleSession = t.sessions := by
    rw [ht]
    exact PerPort.map_eq_self fun p => hs.atEventEnd_eq p
  rw [settleSessions_frame, hmap]

theorem settleSession_done {x : Session} (hclosing : x.state = .closing) (hw : x.withdrawalPending = false)
    (hp : x.surfacesPending = false) : (settleSession x).state = .idle ∧ (settleSession x).label = none := by
  rw [settleSession, if_pos ⟨hclosing, hw, hp⟩]
  exact ⟨rfl, rfl⟩

/-- A notice to the owner of a job that still tells it (R97, R100). -/
theorem JobOk.open_of_notify {s : State} {j : Job} (hj : JobOk s j) (h : j.notify = true) :
    (s.sessions.get j.owner).state = .opened := by
  obtain ⟨hopen, -⟩ | ⟨-, hsilent, -⟩ := hj.owner
  · exact hopen
  · rw [h] at hsilent
    cases hsilent

/-- The job out, and its owner told when it still asks to be. -/
theorem jobOut_told {s : State} {j : Job} {rest : List Job} (hj : JobOk s j) (n : Notice) :
    (if j.notify then post (j.owner, n) (jobOut s rest) else jobOut s rest) =
      { jobOut s rest with
        notices := if j.notify then s.notices.set j.owner ((s.notices.get j.owner).take n) else s.notices } := by
  cases hnotify : j.notify with
  | true =>
    rw [if_pos rfl, if_pos rfl]
    exact post_of_open (x := (j.owner, n)) (s := jobOut s rest) (hj.open_of_notify hnotify)
  | false => rfl

/-- What becomes of the part when the running job ends: the report on a state that has the job out, its owner told and the surfaces freed. -/
theorem jobReported_endJob {s : State} (hs : Lawful s) {j : Job} {rest : List Job} (hjobs : s.engine.jobs = j :: rest)
    (hbusy : s.arb.busy = some (.engineRow false)) (notices : PerPort NoticeQueue) :
    let w := jobStopReport j.owner j.handles { jobOut s rest with notices := notices }
    let t := settleSessions (startNextJob (jobFinished j.owner j.arrival w))
    t.alloc = w.alloc ∧ t.sessions = w.sessions.map settleSession ∧
      JobReported
        { s with
          engine := { s.engine with jobs := promoted rest }
          arb := { s.arb with busy := none, engineRow := decide (promoted rest ≠ []) }
          notices := notices, alloc := t.alloc, sessions := t.sessions }
        j t := by
  intro w t
  have hw : w = { jobOut s rest with notices := notices, alloc := w.alloc, sessions := w.sessions } :=
    jobStopReport_frame _ _ _
  have hstate : ∀ q, (w.sessions.get q).state = (s.sessions.get q).state := fun q => by
    have hreport := surfacesReport_state j.owner (freedForStop j.handles { jobOut s rest with notices := notices }) q
    rw [← jobStopReport_eq, freedForStop_frame] at hreport
    exact hreport
  have hqueue : w.layout = s.layout := by rw [hw]; rfl
  have htiming : w.timing = s.timing := by rw [hw]; rfl
  obtain ⟨halloc, hsessions⟩ := jobFinished_of_transactions (s := w) j.owner j.arrival (by
    rw [NoWithdrawalStopped, hqueue, htiming]
    exact hs.queue.noWithdrawalStopped)
  have hreport : JobReported w j (jobFinished j.owner j.arrival w) :=
    jobReported_of_lawful hs (by rw [hqueue]) (fun q h => (hstate q).trans h) (by rw [hw]; rfl)
  have hframe := jobFinished_frame j.owner j.arrival w
  have hstart : startNextJob (jobFinished j.owner j.arrival w) = _ :=
    startNextJob_after (hs.engine.rest_queued hjobs) (engineRow_of_served hs hbusy)
      (by rw [hframe, hw]) (by rw [hframe, hw])
  have ht : t =
      { jobFinished j.owner j.arrival w with
        engine := { s.engine with jobs := promoted rest }
        arb := { s.arb with busy := none, engineRow := decide (promoted rest ≠ []) }
        sessions := w.sessions.map settleSession } := by
    have hmap : (startNextJob (jobFinished j.owner j.arrival w)).sessions = w.sessions := by
      rw [hstart]
      exact hsessions
    rw [show t = settleSessions (startNextJob (jobFinished j.owner j.arrival w)) from rfl, settleSessions_frame, hmap, hstart]
  have hta : t.alloc = w.alloc := by rw [ht]; exact halloc
  have hts : t.sessions = w.sessions.map settleSession := by rw [ht]
  refine ⟨hta, hts, hreport.congr ?_ (fun q hopen => ?_) ?_⟩
  · rw [hta, hw]
    rfl
  · have hopen : (t.sessions.get q).state = .opened := hopen
    rw [hts, PerPort.get_map, settleSession] at hopen
    split at hopen
    · cases hopen
    · exact hopen
  · exact ht.trans (by rw [hts])

/-- Settles O45: a row counted, and the two ends of the running job. -/
theorem rowCompletionCounts : Obligations.RowCompletionCounts := by
  unfold Obligations.RowCompletionCounts
  refine ⟨fun s hbusy => ?_, fun s j rest hs hjobs hbusy => ?_⟩
  · have hexec : exec .rowCompletion s = execRowCompletion s := rfl
    rw [hexec, execRowCompletion, hbusy]
    rfl
  · have hj : JobOk s j := hs.engine.job j (by rw [hjobs]; exact List.mem_cons_self)
    have hexec := exec_rowCompletion_head hs hjobs hbusy
    have hhead : (freeStore s).engine.jobs = j :: rest := hjobs
    rw [hexec]
    refine ⟨fun hrunning hmore => ?_, fun hrunning hlast => ?_, fun haborting => ?_⟩
    · have hrow : rowDone j (freeStore s) =
          { s with
            engine := { s.engine with jobs := { j with rowsDone := j.rowsDone + 1 } :: rest }
            arb := { s.arb with busy := none, engineRow := true } } := by
        simp only [rowDone, hrunning, hhead, replaceJob_head]
        rw [if_pos hmore]
        rfl
      rw [hrow]
      exact congrArg Host.Outcome.next (settleSessions_of_same hs.queue rfl)
    · have hnotify : j.notify = true := by
        obtain ⟨-, hnotify⟩ | ⟨-, -, habort⟩ := hj.owner
        · exact hnotify
        · rw [hrunning] at habort
          cases habort
      have hrow : rowDone j (freeStore s) =
          endJob { j with rowsDone := j.rowsDone + 1 } (.jobDone j.tag)
            ((freeStore s).setJobs (replaceJob j { j with rowsDone := j.rowsDone + 1 } (freeStore s).engine.jobs)) := by
        simp only [rowDone, hrunning]
        exact if_neg (by rw [hlast]; exact lt_irrefl _)
      refine ⟨_, congrArg Host.Outcome.next (congrArg settleSessions (hrow.trans (endJob_head hjobs))), ?_⟩
      obtain ⟨halloc, hsessions, hreport⟩ := jobReported_endJob hs hjobs hbusy
        (s.notices.set j.owner ((s.notices.get j.owner).take (.jobDone j.tag)))
      have hquiet := jobStopReport_running (v := { jobOut s rest with
        notices := s.notices.set j.owner ((s.notices.get j.owner).take (.jobDone j.tag)) }) hs hjobs hrunning rfl
      rw [hquiet] at halloc hsessions hreport
      rw [jobOut_told hj, hnotify, if_pos rfl, hquiet]
      have hsame : (jobOut s rest).sessions.map settleSession = s.sessions :=
        PerPort.map_eq_self fun p => hs.queue.atEventEnd_eq p
      rw [halloc, hsessions] at hreport
      exact hsame ▸ hreport
    · have hrow : rowDone j (freeStore s) =
          endJob { j with rowsDone := j.rowsDone + 1 } (.jobAborted j.tag)
            ((freeStore s).setJobs (replaceJob j { j with rowsDone := j.rowsDone + 1 } (freeStore s).engine.jobs)) := by
        simp only [rowDone, haborting]
      refine ⟨_, congrArg Host.Outcome.next (congrArg settleSessions (hrow.trans (endJob_head hjobs))), ?_⟩
      rw [jobOut_told hj]
      obtain ⟨halloc, hsessions, hreport⟩ := jobReported_endJob hs hjobs hbusy
        (if j.notify then s.notices.set j.owner ((s.notices.get j.owner).take (.jobAborted j.tag)) else s.notices)
      obtain ⟨v, hv⟩ : ∃ v : State, { jobOut s rest with
        notices := if j.notify then s.notices.set j.owner ((s.notices.get j.owner).take (.jobAborted j.tag))
          else s.notices } = v := ⟨_, rfl⟩
      have hva : v.alloc = s.alloc := by rw [← hv]; rfl
      have hvs : v.sessions = s.sessions := by rw [← hv]; rfl
      rw [hv] at halloc hsessions hreport ⊢
      obtain ⟨t, ht⟩ : ∃ t, settleSessions (startNextJob (jobFinished j.owner j.arrival (jobStopReport j.owner j.handles v))) = t :=
        ⟨_, rfl⟩
      rw [ht] at halloc hsessions hreport ⊢
      refine ⟨hreport, fun i => ?_, fun q hq => ?_, fun hclosing hwithdrawn hall => ?_⟩
      · have hget := jobStopReport_get j.owner j.handles v i
        rw [← halloc, NamedByHandles, hva] at hget
        exact hget
      · rw [hsessions, PerPort.get_map, jobStopReport_eq, surfacesReport_sessions_ne _ hq, freedForStop_frame]
        exact (congrArg (fun x => settleSession (PerPort.get x q)) hvs).trans (hs.queue.atEventEnd_eq q)
      · have hpending : (s.sessions.get j.owner).surfacesPending = true :=
          ((hs.queue.session j.owner).marks.1 hclosing).resolve_left (by rw [hwithdrawn]; decide)
        obtain ⟨hout, howed, -⟩ := hs.surface.marks j.owner
        have hreported := jobStopReport_session_due (owner := j.owner) (hs := j.handles) (s := v)
          (by rw [hva]; exact howed.trans hpending) (by rw [hva]; exact hout.trans hwithdrawn)
          (by rw [hva]; intro i hret hown; rw [NamedByHandles, hva]; exact hall i hret hown)
        rw [hsessions, PerPort.get_map, hreported, hvs]
        exact settleSession_done hclosing hwithdrawn rfl

end Sys2Proof.Machine
end


section
/-! PROOFS. The law of the frame store through the allocator's operations (R52, R53, R55, R57). -/

namespace Sys2Proof.Machine

/-! ### Extents (R52) -/

theorem extent_holds_iff {x : Extent} {b : Nat} : x.holds b = true ↔ x.start ≤ b ∧ b < x.start + x.length := by
  simp only [Extent.holds, Bool.and_eq_true, decide_eq_true_iff]

/-- One when the extent holds the block. -/
def Extent.share (x : Extent) (b : Nat) : Nat := if x.holds b then 1 else 0

theorem share_join {x y z : Extent} (hstart : z.start = x.start) (hmid : x.start + x.length = y.start)
    (hlen : z.length = x.length + y.length) (b : Nat) : z.share b = x.share b + y.share b := by
  simp only [Extent.share, extent_holds_iff, hstart, hlen, ← hmid]
  split_ifs <;> omega

/-- In how many of the extents a block is. -/
theorem countP_holds_cons (x : Extent) (fs : List Extent) (b : Nat) :
    (x :: fs).countP (fun x => x.holds b) = x.share b + fs.countP fun x => x.holds b := by
  rw [List.countP_cons, Nat.add_comm]
  rfl

/-- The free extents stand apart, in order (R52). -/
def ExtentsApart (fs : List Extent) : Prop := fs.Pairwise fun x y => x.start + x.length < y.start

/-- Two extents share no block. -/
def Clear (x y : Extent) : Prop := x.start + x.length ≤ y.start ∨ y.start + y.length ≤ x.start

theorem releaseRun_start {run : Extent} : ∀ {fs : List Extent} {y : Extent}, y ∈ releaseRun run fs →
    y.start = run.start ∨ ∃ z ∈ fs, y.start = z.start
  | [], y, hy => .inl (by rw [List.mem_singleton.1 hy])
  | x :: rest, y, hy => by
    have hold : ∀ {z}, z ∈ x :: rest → ∃ z' ∈ x :: rest, z.start = z'.start := fun hz => ⟨_, hz, rfl⟩
    rw [releaseRun.eq_def] at hy
    dsimp only at hy
    split at hy
    · obtain rfl | hy := List.mem_cons.1 hy
      · exact .inl rfl
      · exact .inr (hold (List.mem_cons_of_mem _ hy))
    · split at hy
      · obtain rfl | hy := List.mem_cons.1 hy
        · exact .inl rfl
        · exact .inr (hold hy)
      · split at hy
        · split at hy
          · rw [List.mem_singleton.1 hy]
            exact .inr ⟨x, List.mem_cons_self, rfl⟩
          · split at hy
            · obtain rfl | hy := List.mem_cons.1 hy
              · exact .inr ⟨x, List.mem_cons_self, rfl⟩
              · exact .inr (hold (List.mem_cons_of_mem _ (List.mem_cons_of_mem _ hy)))
            · obtain rfl | hy := List.mem_cons.1 hy
              · exact .inr ⟨x, List.mem_cons_self, rfl⟩
              · exact .inr (hold (List.mem_cons_of_mem _ hy))
        · obtain rfl | hy := List.mem_cons.1 hy
          · exact .inr ⟨y, List.mem_cons_self, rfl⟩
          · obtain h | ⟨z, hz, h⟩ := releaseRun_start hy
            · exact .inl h
            · exact .inr ⟨z, List.mem_cons_of_mem _ hz, h⟩

/-- What the release of a run makes of the free list: the blocks of the run come to it, the extents stay apart and none is empty or reaches
further than before (R52, R57). -/
structure Released (run : Extent) (fs gs : List Extent) : Prop where
  holds : ∀ b, gs.countP (fun x => x.holds b) = fs.countP (fun x => x.holds b) + run.share b
  apart : ExtentsApart gs
  bounds : ∀ n, run.start + run.length ≤ n → (∀ x ∈ fs, 1 ≤ x.length ∧ x.start + x.length ≤ n) →
    ∀ x ∈ gs, 1 ≤ x.length ∧ x.start + x.length ≤ n

theorem released_releaseRun {run : Extent} (hrun : 1 ≤ run.length) : ∀ {fs : List Extent}, ExtentsApart fs →
    (∀ x ∈ fs, Clear x run) → (∀ x ∈ fs, 1 ≤ x.length) → Released run fs (releaseRun run fs)
  | [], _, _, _ => by
    refine ⟨fun b => ?_, List.pairwise_singleton _ _, fun n hn _ x hx => ?_⟩
    · rw [releaseRun, countP_holds_cons]
      simp
    · rw [List.mem_singleton.1 hx]
      exact ⟨hrun, hn⟩
  | x :: rest, hapart, hclear, hlen => by
    obtain ⟨hx, hrest⟩ := List.pairwise_cons.1 hapart
    have hxlen := hlen x List.mem_cons_self
    have hrestlen : ∀ y ∈ rest, 1 ≤ y.length := fun y hy => hlen y (List.mem_cons_of_mem _ hy)
    have hxclear := hclear x List.mem_cons_self
    have hrestclear : ∀ y ∈ rest, Clear y run := fun y hy => hclear y (List.mem_cons_of_mem _ hy)
    rw [releaseRun.eq_def]
    dsimp only
    split
    case isTrue hjoin =>
      refine ⟨fun b => ?_, List.pairwise_cons.2 ⟨fun y hy => ?_, hrest⟩, fun n hn hbound y hy => ?_⟩
      · rw [countP_holds_cons, countP_holds_cons, share_join (x := run) (y := x) (z := ⟨run.start, run.length + x.length⟩) rfl hjoin rfl]
        omega
      · have := hx y hy
        simp only
        omega
      · obtain rfl | hy := List.mem_cons.1 hy
        · have := hbound x List.mem_cons_self
          simp only
          omega
        · exact hbound y (List.mem_cons_of_mem _ hy)
    case isFalse hjoin =>
      split
      case isTrue hbefore =>
        have hgap : run.start + run.length < x.start := by
          unfold Clear at hxclear
          omega
        refine ⟨fun b => ?_, List.pairwise_cons.2 ⟨fun y hy => ?_, hapart⟩, fun n hn hbound y hy => ?_⟩
        · rw [countP_holds_cons run, Nat.add_comm]
        · obtain rfl | hy := List.mem_cons.1 hy
          · exact hgap
          · have := hx y hy
            omega
        · obtain rfl | hy := List.mem_cons.1 hy
          · exact ⟨hrun, hn⟩
          · exact hbound y hy
      case isFalse hbefore =>
        have hbelow : x.start + x.length ≤ run.start := by
          unfold Clear at hxclear
          omega
        split
        case isTrue htouch =>
          split
          case h_1 =>
            refine ⟨fun b => ?_, List.pairwise_singleton _ _, fun n hn hbound y hy => ?_⟩
            · rw [countP_holds_cons, countP_holds_cons, share_join (x := x) (y := run) (z := ⟨x.start, x.length + run.length⟩) rfl htouch rfl]
              omega
            · have := hbound x List.mem_cons_self
              rw [List.mem_singleton.1 hy]
              simp only
              omega
          case h_2 y rest' =>
            obtain ⟨hy', hrest'⟩ := List.pairwise_cons.1 hrest
            have hxy := hx y List.mem_cons_self
            have hyclear := hrestclear y List.mem_cons_self
            have hylen := hrestlen y List.mem_cons_self
            split
            case isTrue hboth =>
              refine ⟨fun b => ?_, List.pairwise_cons.2 ⟨fun z hz => ?_, hrest'⟩, fun n hn hbound z hz => ?_⟩
              · have hfirst : ({ start := x.start, length := x.length + run.length } : Extent).share b = x.share b + run.share b :=
                  share_join (x := x) (y := run) (z := ⟨x.start, x.length + run.length⟩) rfl htouch rfl b
                rw [countP_holds_cons, countP_holds_cons, countP_holds_cons,
                  share_join (x := ⟨x.start, x.length + run.length⟩) (y := y)
                    (z := ⟨x.start, x.length + run.length + y.length⟩) rfl (by simp only; omega) rfl, hfirst]
                omega
              · have := hy' z hz
                simp only
                omega
              · obtain rfl | hz := List.mem_cons.1 hz
                · have := hbound y (List.mem_cons_of_mem _ List.mem_cons_self)
                  simp only
                  omega
                · exact hbound z (List.mem_cons_of_mem _ (List.mem_cons_of_mem _ hz))
            case isFalse hboth =>
              have hgap : run.start + run.length < y.start := by
                unfold Clear at hyclear
                omega
              refine ⟨fun b => ?_, List.pairwise_cons.2 ⟨fun z hz => ?_, hrest⟩, fun n hn hbound z hz => ?_⟩
              · rw [countP_holds_cons, countP_holds_cons x, share_join (x := x) (y := run) (z := ⟨x.start, x.length + run.length⟩) rfl htouch rfl]
                omega
              · obtain rfl | hz := List.mem_cons.1 hz
                · simp only
                  omega
                · have := hy' z hz
                  simp only
                  omega
              · obtain rfl | hz := List.mem_cons.1 hz
                · simp only
                  omega
                · exact hbound z (List.mem_cons_of_mem _ hz)
        case isFalse htouch =>
          obtain ⟨hholds, hgs, hbounds⟩ := released_releaseRun hrun hrest hrestclear hrestlen
          refine ⟨fun b => ?_, List.pairwise_cons.2 ⟨fun y hy => ?_, hgs⟩, fun n hn hbound y hy => ?_⟩
          · rw [countP_holds_cons, countP_holds_cons, hholds]
            omega
          · obtain hy | ⟨z, hz, hy⟩ := releaseRun_start hy
            · omega
            · have := hx z hz
              omega
          · obtain rfl | hy := List.mem_cons.1 hy
            · exact hbound y List.mem_cons_self
            · exact hbounds n hn (fun z hz => hbound z (List.mem_cons_of_mem _ hz)) y hy

/-! ### The surface table as a list -/

theorem vector_toList_eq {α : Type} {n : Nat} (v : Vector α n) : v.toList = (List.finRange n).map v.get := by
  refine List.ext_getElem (by simp) fun k h1 h2 => ?_
  simp [Vector.get_eq_getElem]

/-- The entry of an index in its place among the others. -/
theorem table_split {α : Type} {n : Nat} (v : Vector α n) (i : Fin n) :
    ∃ ahead behind, v.toList = ahead ++ v.get i :: behind ∧
      ∀ x, (v.set i.val x i.isLt).toList = ahead ++ x :: behind := by
  have hlen : i.val < v.toList.length := by rw [Vector.length_toList]; exact i.isLt
  have hset : ∀ x, (v.set i.val x i.isLt).toList = v.toList.take i.val ++ x :: v.toList.drop (i.val + 1) := fun x => by
    rw [Vector.toList_set, List.set_eq_take_append_cons_drop, if_pos hlen]
  refine ⟨v.toList.take i.val, v.toList.drop (i.val + 1), ?_, hset⟩
  have hself := hset (v.get i)
  rwa [show v.set i.val (v.get i) i.isLt = v from Vector.set_getElem_self _] at hself

/-! ### The law of the frame store, operation by operation -/

/-- Two entries hold the same blocks for the same owner (R52, R53). -/
def SameBlocks (e e' : SurfEntry) : Prop :=
  (e'.state = .free ↔ e.state = .free) ∧ e'.owner = e.owner ∧ e'.firstBlock = e.firstBlock ∧ e'.blockCount = e.blockCount

theorem SameBlocks.holds {e e' : SurfEntry} (h : SameBlocks e e') (b : Nat) : e'.holds b = e.holds b := by
  obtain ⟨hfree, -, hfirst, hcount⟩ := h
  simp only [SurfEntry.holds, hfirst, hcount, ne_eq, decide_not, decide_eq_decide.2 hfree]

theorem SameBlocks.chargeFor {e e' : SurfEntry} (h : SameBlocks e e') (p : Port) : e'.chargeFor p = e.chargeFor p := by
  obtain ⟨hfree, howner, -, hcount⟩ := h
  simp only [SurfEntry.chargeFor, howner, hcount, ne_eq, hfree]

/-- What changes no block, no charge and no free extent keeps the law. -/
theorem AllocLaw.of_sameBlocks {a a' : Allocator} (h : AllocLaw a) (hfree : a'.free = a.free) (hcharge : a'.charge = a.charge)
    (htable : ∀ i : Fin 32, SameBlocks (a.table.get i) (a'.table.get i)) : AllocLaw a' := by
  obtain ⟨honce, hextents, hruns, hapart, hcharges⟩ := h
  refine ⟨fun b hb => ?_, by rwa [hfree], fun e he hstate => ?_, by rwa [hfree], fun p => ?_⟩
  · rw [← honce b hb, holders, holders, hfree, vector_toList_eq, vector_toList_eq, List.countP_map, List.countP_map]
    exact congrArg _ (List.countP_congr fun i _ => by
      simp only [Function.comp_apply, (htable i).holds])
  · rw [vector_toList_eq] at he
    obtain ⟨i, -, rfl⟩ := List.mem_map.1 he
    obtain ⟨hstate', -, hfirst, hcount⟩ := htable i
    rw [hfirst, hcount]
    exact hruns _ (get_mem_toList _ i) (mt hstate'.2 hstate)
  · rw [hcharge, hcharges p, vector_toList_eq, vector_toList_eq, List.map_map, List.map_map]
    exact congrArg List.sum (List.map_congr_left fun i _ => ((htable i).chargeFor p).symm)

/-- The run of blocks of a surface (R52). -/
def SurfEntry.run (e : SurfEntry) : Extent := { start := e.firstBlock, length := e.blockCount }

theorem holds_of_not_free {e : SurfEntry} (h : e.state ≠ .free) (b : Nat) : e.holds b = e.run.holds b :=
  congrArg (fun t => t && decide (e.firstBlock ≤ b) && decide (b < e.firstBlock + e.blockCount)) (decide_eq_true h)

theorem holds_of_free {e : SurfEntry} (h : e.state = .free) (b : Nat) : e.holds b = false := by
  simp [SurfEntry.holds, h]

/-- No free extent shares a block with a surface, for each block is in one place (R52). -/
theorem AllocLaw.clear {a : Allocator} (h : AllocLaw a) {i : Fin 32} (hi : (a.table.get i).state ≠ .free) :
    ∀ x ∈ a.free, Clear x (a.table.get i).run := by
  intro x hx
  by_contra hclear
  obtain ⟨hlen, hend⟩ := h.extents x hx
  obtain ⟨hrunlen, hrunend⟩ := h.runs _ (get_mem_toList _ i) hi
  have hshared : ∃ b, b < Config.blocks ∧ x.holds b = true ∧ (a.table.get i).holds b = true := by
    simp only [Clear, SurfEntry.run] at hclear
    simp only [holds_of_not_free hi, extent_holds_iff, SurfEntry.run]
    exact ⟨max x.start (a.table.get i).firstBlock, by omega⟩
  obtain ⟨b, hb, hxb, heb⟩ := hshared
  have hfree : 0 < a.free.countP fun x => x.holds b := List.countP_pos_iff.2 ⟨x, hx, hxb⟩
  have htable : 0 < a.table.toList.countP fun e => e.holds b := List.countP_pos_iff.2 ⟨_, get_mem_toList _ i, heb⟩
  have honce := h.once b hb
  unfold holders at honce
  omega

/-- Freeing a surface gives its blocks back and takes them from its owner's charge (R52, R53, R57). -/
theorem AllocLaw.freeSurface {s : State} (h : AllocLaw s.alloc) {i : Fin 32} (hi : (s.alloc.table.get i).state ≠ .free) :
    AllocLaw (freeSurface i s).alloc := by
  obtain ⟨e, he⟩ : ∃ e, s.alloc.table.get i = e := ⟨_, rfl⟩
  have hruns := h.runs _ (get_mem_toList s.alloc.table i) hi
  have hreleased := released_releaseRun (run := (s.alloc.table.get i).run) hruns.1 h.apart (h.clear hi)
    fun x hx => (h.extents x hx).1
  obtain ⟨ahead, behind, hsplit, hset⟩ := table_split s.alloc.table i
  have htable := hset { s.alloc.table.get i with state := .free }
  rw [he] at hi hruns hreleased hsplit htable
  have halloc : (Machine.freeSurface i s).alloc =
      { s.alloc with
        table := s.alloc.table.set i.val { e with state := .free } i.isLt
        free := releaseRun e.run s.alloc.free
        charge := s.alloc.charge.set e.owner (s.alloc.charge.get e.owner - e.blockCount) } := by
    rw [← he]
    rfl
  rw [halloc]
  refine ⟨fun b hb => ?_, fun x hx => hreleased.bounds _ hruns.2 h.extents x hx, fun e' he' hstate => ?_, hreleased.apart,
    fun p => ?_⟩
  · have honce := h.once b hb
    unfold holders at honce ⊢
    rw [hsplit] at honce
    dsimp only
    rw [htable, hreleased.holds]
    have hshare : e.run.share b = if e.holds b then 1 else 0 := by rw [holds_of_not_free hi]; rfl
    have hgone : ({ e with state := .free } : SurfEntry).holds b = false := holds_of_free rfl b
    simp only [List.countP_append, List.countP_cons, hgone] at honce ⊢
    simp only [Bool.false_eq_true, if_false, hshare]
    omega
  · dsimp only at he'
    rw [htable] at he'
    obtain he' | he' := List.mem_append.1 he'
    · exact h.runs e' (by rw [hsplit]; exact List.mem_append_left _ he') hstate
    · obtain rfl | he' := List.mem_cons.1 he'
      · exact absurd rfl hstate
      · exact h.runs e' (by rw [hsplit]; exact List.mem_append_right _ (List.mem_cons_of_mem _ he')) hstate
  · have hcharge := h.charges p
    have hgone : ({ e with state := .free } : SurfEntry).chargeFor p = 0 := by simp [SurfEntry.chargeFor]
    rw [hsplit] at hcharge
    dsimp only
    rw [htable]
    simp only [List.map_append, List.map_cons, List.sum_append, List.sum_cons, hgone] at hcharge ⊢
    by_cases hp : p = e.owner
    · subst hp
      have hown : e.chargeFor e.owner = e.blockCount := by simp [SurfEntry.chargeFor, hi]
      rw [PerPort.get_set_same, hcharge, hown]
      omega
    · have hother : e.chargeFor p = 0 := by
        simp only [SurfEntry.chargeFor]
        exact if_neg fun h => hp h.2.symm
      rw [PerPort.get_set_ne _ _ hp, hcharge, hother]

/-- What first fit leaves of the free list (R55): the run has gone from it, and its extents still stand apart. -/
theorem takeRun_spec {n first : Nat} {fs gs : List Extent} (hn : 1 ≤ n) (h : takeRun n fs = some (first, gs))
    (hapart : ExtentsApart fs) :
    (∀ b, fs.countP (fun x => x.holds b) = gs.countP (fun x => x.holds b) + (⟨first, n⟩ : Extent).share b) ∧
      ExtentsApart gs ∧
      ∀ m, (∀ x ∈ fs, 1 ≤ x.length ∧ x.start + x.length ≤ m) →
        first + n ≤ m ∧ ∀ x ∈ gs, 1 ≤ x.length ∧ x.start + x.length ≤ m := by
  obtain ⟨ahead, x, behind, rfl, -, hfits, rfl, rfl⟩ := takeRun_eq_some h
  obtain ⟨hahead, htail, hcross⟩ := List.pairwise_append.1 hapart
  obtain ⟨hx, hbehind⟩ := List.pairwise_cons.1 htail
  by_cases hwhole : x.length = n
  · rw [if_pos hwhole]
    have hsame : x = ⟨x.start, n⟩ := by rw [← hwhole]
    refine ⟨fun b => ?_, List.pairwise_append.2 ⟨hahead, hbehind, fun y hy z hz => hcross y hy z (List.mem_cons_of_mem _ hz)⟩,
      fun m hm => ⟨?_, fun y hy => hm y ?_⟩⟩
    · rw [← hsame, List.countP_append, List.countP_append, countP_holds_cons]
      omega
    · have := hm x (List.mem_append_right _ List.mem_cons_self)
      omega
    · exact (List.mem_append.1 hy).elim (fun h => List.mem_append_left _ h)
        fun h => List.mem_append_right _ (List.mem_cons_of_mem _ h)
  · rw [if_neg hwhole]
    refine ⟨fun b => ?_, List.pairwise_append.2 ⟨hahead, List.pairwise_cons.2 ⟨fun z hz => ?_, hbehind⟩, fun y hy z hz => ?_⟩,
      fun m hm => ⟨?_, fun y hy => ?_⟩⟩
    · rw [List.countP_append, List.countP_append, countP_holds_cons, countP_holds_cons,
        share_join (x := ⟨x.start, n⟩) (y := ⟨x.start + n, x.length - n⟩) (z := x) rfl rfl (by simp only; omega)]
      omega
    · have := hx z hz
      simp only
      omega
    · obtain rfl | hz := List.mem_cons.1 hz
      · have := hcross y hy x List.mem_cons_self
        simp only
        omega
      · exact hcross y hy z (List.mem_cons_of_mem _ hz)
    · have := hm x (List.mem_append_right _ List.mem_cons_self)
      omega
    · obtain hy | hy := List.mem_append.1 hy
      · exact hm y (List.mem_append_left _ hy)
      · obtain rfl | hy := List.mem_cons.1 hy
        · have := hm x (List.mem_append_right _ List.mem_cons_self)
          simp only
          omega
        · exact hm y (List.mem_append_right _ (List.mem_cons_of_mem _ hy))

/-- A surface takes its run from the free list and its blocks come to its owner's charge (R52, R53, R55). -/
theorem AllocLaw.takeSurface {a : Allocator} (h : AllocLaw a) {i : Fin 32} (hi : (a.table.get i).state = .free) {e : SurfEntry}
    (he : e.state ≠ .free) {gs : List Extent} (hn : 1 ≤ e.blockCount) (hrun : takeRun e.blockCount a.free = some (e.firstBlock, gs)) :
    AllocLaw
      { a with
        table := a.table.set i.val e i.isLt, free := gs
        charge := a.charge.set e.owner (a.charge.get e.owner + e.blockCount) } := by
  obtain ⟨hholds, hgs, hbounds⟩ := takeRun_spec hn hrun h.apart
  obtain ⟨hend, hextents⟩ := hbounds Config.blocks h.extents
  obtain ⟨ahead, behind, hsplit, hset⟩ := table_split a.table i
  have htable := hset e
  refine ⟨fun b hb => ?_, hextents, fun e' he' hstate => ?_, hgs, fun p => ?_⟩
  · have honce := h.once b hb
    unfold holders at honce ⊢
    rw [hsplit, hholds] at honce
    dsimp only
    rw [htable]
    have hshare : (⟨e.firstBlock, e.blockCount⟩ : Extent).share b = if e.holds b then 1 else 0 := by
      rw [holds_of_not_free he]
      rfl
    simp only [List.countP_append, List.countP_cons, holds_of_free hi b, hshare] at honce ⊢
    simp only [Bool.false_eq_true, if_false] at honce
    omega
  · dsimp only at he'
    rw [htable] at he'
    obtain he' | he' := List.mem_append.1 he'
    · exact h.runs e' (by rw [hsplit]; exact List.mem_append_left _ he') hstate
    · obtain rfl | he' := List.mem_cons.1 he'
      · exact ⟨hn, hend⟩
      · exact h.runs e' (by rw [hsplit]; exact List.mem_append_right _ (List.mem_cons_of_mem _ he')) hstate
  · have hcharge := h.charges p
    have hnone : (a.table.get i).chargeFor p = 0 := by simp [SurfEntry.chargeFor, hi]
    rw [hsplit] at hcharge
    dsimp only
    rw [htable]
    simp only [List.map_append, List.map_cons, List.sum_append, List.sum_cons, hnone] at hcharge ⊢
    by_cases hp : p = e.owner
    · subst hp
      have hown : e.chargeFor e.owner = e.blockCount := by simp [SurfEntry.chargeFor, he]
      rw [PerPort.get_set_same, hcharge, hown]
      omega
    · have hother : e.chargeFor p = 0 := by
        simp only [SurfEntry.chargeFor]
        exact if_neg fun h => hp h.2.symm
      rw [PerPort.get_set_ne _ _ hp, hcharge, hother]

/-- A surface of at least one line holds at least one block (R51). -/
theorem one_le_blocksOf {w h : Nat} {d : Depth} (hw : 8 ≤ w) (hh : 1 ≤ h) : 1 ≤ blocksOf (strideOf w d) h := by
  have hbits : 1 ≤ d.bits := by cases d <;> decide
  have hbytes : 8 ≤ w * d.bits := le_trans hw (Nat.le_mul_of_pos_right w hbits)
  have hstride : 1 ≤ strideOf w d := by
    unfold strideOf
    omega
  have hsize : 1 ≤ strideOf w d * h := Nat.mul_pos hstride hh
  unfold blocksOf Config.blockBytes
  omega

/-- The allocator after DEVICE_RESET: every block is free and nothing is charged (R71). -/
theorem allocLaw_resetAllocator (s : State) : AllocLaw (resetAllocator s).alloc := by
  have hfree : ∀ e ∈ (s.alloc.table.map clearEntry).toList, e.state = .free := fun e he => by
    rw [Vector.toList_map] at he
    obtain ⟨e0, -, rfl⟩ := List.mem_map.1 he
    rfl
  refine ⟨fun b hb => ?_, fun x hx => ?_, fun e he hstate => absurd (hfree e he) hstate, List.pairwise_singleton _ _, fun p => ?_⟩
  · have hnone : (s.alloc.table.map clearEntry).toList.countP (fun e => e.holds b) = 0 :=
      List.countP_eq_zero.2 fun e he => by rw [holds_of_free (hfree e he)]; decide
    have hone : [({ start := 0, length := Config.blocks } : Extent)].countP (fun x => x.holds b) = 1 := by
      rw [countP_holds_cons, Extent.share, if_pos (extent_holds_iff.2 ⟨Nat.zero_le b, by simpa using hb⟩)]
      rfl
    exact (congrArg₂ (· + ·) hone hnone)
  · rw [List.mem_singleton.1 hx]
    decide
  · refine (PerPort.get_every 0 p).trans (Eq.symm (List.sum_eq_zero fun n hn => ?_))
    obtain ⟨e, he, rfl⟩ := List.mem_map.1 hn
    simp [SurfEntry.chargeFor, hfree e he]

end Sys2Proof.Machine
end


section
/-! PROOFS. The law of the palette's grants (R74, R75, R79) and the laws of the layout (R3 to R10, R19 to R21), operation by operation. -/

namespace Sys2Proof.Machine

/-! ### Grants (R74) -/

/-- The grant law of R74 and the cursors of R79, on the palette's records. -/
def GrantLaw (r : PerPort PalRecord) : Prop :=
  (∀ p q, p ≠ q → GrantsApart (r.get p).grant (r.get q).grant) ∧
    ∀ p g, (r.get p).grant = some g → GrantOk g ∧ ∀ c, (r.get p).cursor = some c → CursorOk g c

theorem grantsApart_symm {a b : Option Grant} (h : GrantsApart a b) : GrantsApart b a := by
  cases a <;> cases b <;> first | exact h.symm | trivial

theorem grantsApart_none (a : Option Grant) : GrantsApart none a := by cases a <;> trivial

/-- A port's record replaced: its grant must stand apart from the others, and its cursor lie in it. -/
theorem GrantLaw.set {r : PerPort PalRecord} (h : GrantLaw r) {p : Port} {x : PalRecord}
    (hapart : ∀ q, q ≠ p → GrantsApart x.grant (r.get q).grant)
    (hok : ∀ g, x.grant = some g → GrantOk g ∧ ∀ c, x.cursor = some c → CursorOk g c) : GrantLaw (r.set p x) := by
  obtain ⟨happ, hrec⟩ := h
  refine ⟨fun q q' hne => ?_, fun q g hg => ?_⟩
  · by_cases hq : q = p
    · subst hq
      rw [PerPort.get_set_same, PerPort.get_set_ne _ _ (Ne.symm hne)]
      exact hapart q' (Ne.symm hne)
    · rw [PerPort.get_set_ne _ _ hq]
      by_cases hq' : q' = p
      · subst hq'
        rw [PerPort.get_set_same]
        exact grantsApart_symm (hapart q hq)
      · rw [PerPort.get_set_ne _ _ hq']
        exact happ q q' hne
  · by_cases hq : q = p
    · subst hq
      rw [PerPort.get_set_same] at hg ⊢
      exact hok g hg
    · rw [PerPort.get_set_ne _ _ hq] at hg ⊢
      exact hrec q g hg

/-- A port's record without a grant. -/
theorem GrantLaw.drop {r : PerPort PalRecord} (h : GrantLaw r) (p : Port) {x : PalRecord} (hx : x.grant = none) :
    GrantLaw (r.set p x) :=
  h.set (fun q _ => by rw [hx]; exact grantsApart_none _) fun g hg => by rw [hx] at hg; cases hg

/-- A port's record with the grant it had, and a cursor that lies in it. -/
theorem GrantLaw.keep {r : PerPort PalRecord} (h : GrantLaw r) {p : Port} {x : PalRecord} (hx : x.grant = (r.get p).grant)
    (hcursor : ∀ g, (r.get p).grant = some g → ∀ c, x.cursor = some c → CursorOk g c) : GrantLaw (r.set p x) := by
  refine h.set (fun q hq => ?_) fun g hg => ?_
  · rw [hx]
    exact h.1 p q (Ne.symm hq)
  · rw [hx] at hg
    exact ⟨(h.2 p g hg).1, hcursor g hg⟩

theorem grantLaw_every_absent : GrantLaw (PerPort.every PalRecord.absent) := by
  refine ⟨fun p q _ => ?_, fun p g hg => ?_⟩
  · rw [PerPort.get_every]
    exact grantsApart_none _
  · rw [PerPort.get_every] at hg
    cases hg

theorem GrantLaw.publish {s : State} (h : GrantLaw s.pal.records) (p : Port) : GrantLaw (publish p s).pal.records := by
  unfold Machine.publish
  dsimp only
  split
  · exact h
  · exact h.keep rfl fun g' hg' c hc => (h.2 p g' hg').2 c hc

theorem GrantLaw.releaseGrant {s : State} (h : GrantLaw s.pal.records) (p : Port) :
    GrantLaw (releaseGrant p s).pal.records := h.drop p rfl

theorem GrantLaw.dropCursor {s : State} (h : GrantLaw s.pal.records) (p : Port) : GrantLaw (dropCursor p s).pal.records :=
  h.keep rfl fun _ _ _ hc => by cases hc

/-- What the search for a base finds is aligned, inside the palette and clear of every grant (R75). -/
theorem findBase_spec {s : State} {size base : Nat} (hsize : size ∈ grantSizes) (h : findBase s size = some base) :
    GrantOk ⟨base, size⟩ ∧ ∀ q, GrantsApart (some ⟨base, size⟩) (s.pal.records.get q).grant := by
  have hclear := clearOfGrants_iff.1 (List.find?_some (p := fun b => clearOfGrants s b size) h)
  obtain ⟨k, hk, rfl⟩ := List.mem_map.1 (List.mem_of_find?_eq_some h)
  have hk := List.mem_range.1 hk
  have hdvd : ∀ n ∈ grantSizes, n ∣ 256 := by decide
  have hend : k * size + size ≤ 256 := by
    have hle : (k + 1) * size ≤ 256 / size * size := Nat.mul_le_mul_right _ hk
    rw [Nat.div_mul_cancel (hdvd size hsize), Nat.add_mul, one_mul] at hle
    exact hle
  refine ⟨⟨hsize, Nat.mul_mod_left _ _, hend⟩, fun q => ?_⟩
  cases hg : (s.pal.records.get q).grant with
  | none => trivial
  | some g => exact hclear q g hg

theorem GrantLaw.makeGrant {s : State} (h : GrantLaw s.pal.records) {p : Port} {size base : Nat} (hsize : size ∈ grantSizes)
    (hfind : findBase s size = some base) : GrantLaw (makeGrant p ⟨base, size⟩ s).pal.records := by
  obtain ⟨hok, hapart⟩ := findBase_spec hsize hfind
  refine h.set (fun q _ => hapart q) fun g hg => ?_
  cases hg
  refine ⟨hok, fun c hc => ?_⟩
  cases hc
  exact ⟨Nat.zero_le _, fun _ => rfl⟩

/-! ### Cursors (R79) -/

theorem parked_iff {size : Nat} {c : Cursor} : c.parked size = true ↔ size ≤ c.offset := decide_eq_true_iff

theorem CursorOk.advance {g : Grant} {c : Cursor} (hc : ¬c.parked g.size = true) : CursorOk g (c.advance g.size) := by
  have hlt : c.offset < g.size := Nat.lt_of_not_le (mt parked_iff.2 hc)
  unfold Cursor.advance
  split
  · exact ⟨Nat.le_of_lt hlt, fun h => absurd h (Nat.ne_of_lt hlt)⟩
  · exact ⟨Nat.le_of_lt hlt, fun h => absurd h (Nat.ne_of_lt hlt)⟩
  · refine ⟨?_, fun _ => rfl⟩
    dsimp only
    split
    · exact Nat.le_of_lt (by assumption)
    · exact Nat.le_refl _

theorem CursorOk.storeComponents {g : Grant} : ∀ (bytes : List Byte) (a : Vector Colour 256) {c : Cursor} (n : Nat),
    CursorOk g c → CursorOk g (storeComponents g bytes a c n).2.1
  | [], _, _, _, h => h
  | b :: rest, a, c, n, h => by
    rw [Machine.storeComponents]
    split
    · exact h
    case isFalse hparked => exact CursorOk.storeComponents rest _ _ (CursorOk.advance hparked)

theorem CursorOk.readComponents {g : Grant} (a : Vector Colour 256) : ∀ (count : Nat) {c : Cursor},
    CursorOk g c → CursorOk g (readComponents g a count c).2
  | 0, _, h => h
  | n + 1, c, h => by
    rw [Machine.readComponents]
    split
    · exact h
    case isFalse hparked => exact CursorOk.readComponents a n (CursorOk.advance hparked)

/-- The cursor that the requests of R81 to R83 start from lies in the grant. -/
theorem GrantLaw.cursorOf {s : State} (h : GrantLaw s.pal.records) {p : Port} {g : Grant} (hg : grantOf s p = some g) :
    CursorOk g (cursorOf s p g) := by
  unfold Machine.cursorOf
  split
  case h_1 c hc => exact (h.2 p g hg).2 c hc
  · exact ⟨Nat.le_refl _, fun _ => rfl⟩

/-! ### The band list of a tentative copy (R3, R5, R32 to R34) -/

/-- A band list in band-list order, each band on one line at least, and each key once. -/
structure BandsOrdered (bs : List Band) : Prop where
  counts : ∀ b ∈ bs, 1 ≤ b.count
  keys : (bs.map Band.key).Nodup
  sorted : bs.Pairwise fun a b => a.before b = true

theorem BandsOrdered.sublist {bs cs : List Band} (h : BandsOrdered bs) (hsub : cs.Sublist bs) : BandsOrdered cs :=
  ⟨fun b hb => h.counts b (hsub.subset hb), h.keys.sublist (hsub.map _), h.sorted.sublist hsub⟩

theorem insertBand_perm (b : Band) : ∀ bs : List Band, (insertBand b bs).Perm (b :: bs)
  | [] => List.Perm.refl _
  | x :: rest => by
    unfold insertBand
    split
    · exact List.Perm.refl _
    · exact ((insertBand_perm b rest).cons x).trans (List.Perm.swap _ _ _)

/-- BAND_PUT keeps the order (R34). -/
theorem BandsOrdered.put {bs : List Band} (h : BandsOrdered bs) {b : Band} (hb : 1 ≤ b.count) :
    BandsOrdered (insertBand b (removeBand b.key bs)) := by
  have hrest : BandsOrdered (removeBand b.key bs) := h.sublist List.filter_sublist
  have hkeys : ∀ x ∈ removeBand b.key bs, x.key ≠ b.key := fun x hx => (mem_removeBand.1 hx).2
  refine ⟨fun x hx => ?_, ?_, insertBand_sorted hrest.sorted hkeys⟩
  · obtain rfl | hx := mem_insertBand.1 hx
    · exact hb
    · exact hrest.counts x hx
  · rw [((insertBand_perm b _).map Band.key).nodup_iff, List.map_cons, List.nodup_cons]
    refine ⟨fun hmem => ?_, hrest.keys⟩
    obtain ⟨x, hx, hkey⟩ := List.mem_map.1 hmem
    exact hkeys x hx hkey

/-- BAND_VIEW and BAND_SURFACE leave every band in its place. -/
theorem BandsOrdered.setPart {bs : List Band} (h : BandsOrdered bs) (k : BandKey) (part : BandPart) :
    BandsOrdered (setBandPart k part bs) := by
  have hsame : ∀ b : Band, (if b.key = k then { b with part := part } else b).key = b.key ∧
      (if b.key = k then { b with part := part } else b).first = b.first ∧
      (if b.key = k then { b with part := part } else b).count = b.count := fun b => by
    split <;> exact ⟨rfl, rfl, rfl⟩
  refine ⟨fun x hx => ?_, ?_, ?_⟩
  · obtain ⟨b, hb, rfl⟩ := List.mem_map.1 hx
    rw [(hsame b).2.2]
    exact h.counts b hb
  · have hkeys : (setBandPart k part bs).map Band.key = bs.map Band.key := by
      rw [setBandPart, List.map_map]
      exact List.map_congr_left fun b _ => (hsame b).1
    rw [hkeys]
    exact h.keys
  · refine List.pairwise_map.2 (h.sorted.imp fun {a b} hab => ?_)
    rw [before_iff] at hab ⊢
    rw [(hsame a).1, (hsame b).1, (hsame a).2.1, (hsame b).2.1]
    exact hab

/-- A stageable edit keeps the copy's bands in order (R19 to R21, R32, R33). -/
theorem BandsOrdered.applyEdit {p : Port} {t t' : Tentative} {e : Edit} (h : BandsOrdered t.copy.bands)
    (he : e.stageable p = true) (hedit : applyEdit p t e = .ok t') : BandsOrdered t'.copy.bands := by
  cases e with
  | bandPut b =>
    cases hedit
    simp only [Edit.stageable, Bool.and_eq_true, decide_eq_true_eq] at he
    obtain ⟨⟨⟨⟨-, hb⟩, -⟩, -⟩, -⟩ := he
    exact h.put hb
  | setTiming tm | setBackground c | setStaleColour c =>
    cases hedit
    exact h
  | bandView n x y | bandSurface n hd =>
    obtain ⟨_, _, _, rfl⟩ := changeSurface_cases hedit
    exact h.setPart _ _
  | bandDrop n =>
    simp only [Machine.applyEdit] at hedit
    split at hedit <;> cases hedit
    exact h.sublist List.filter_sublist
  | evictBand k =>
    simp only [Machine.applyEdit] at hedit
    split at hedit <;> cases hedit
    · exact h
    · exact h.sublist List.filter_sublist
  | setRegion q r =>
    cases hedit
    rw [(foldl_evict _ _).1]
    exact h.sublist List.filter_sublist

theorem BandsOrdered.applyEdits {p : Port} : ∀ {es : List Edit} {t t' : Tentative}, BandsOrdered t.copy.bands →
    EditsOk p es → applyEdits p es t = .ok t' → BandsOrdered t'.copy.bands
  | [], t, t', h, _, hedits => by
    cases hedits
    exact h
  | e :: rest, t, t', h, hes, hedits => by
    rw [Machine.applyEdits] at hedits
    split at hedits
    · cases hedits
    case h_2 t1 h1 =>
      exact (h.applyEdit (hes e List.mem_cons_self) h1).applyEdits (fun x hx => hes x (List.mem_cons_of_mem _ hx)) hedits

theorem LayoutOk.ordered {l : Layout} (h : LayoutOk l) : BandsOrdered l.bands := by
  refine ⟨fun b hb => (h.bands b hb).1, h.keys, h.apart.imp_of_mem fun {a b} ha _ hab => before_iff.2 (.inl ?_)⟩
  have := (h.bands a ha).1
  omega

/-! ### Validation makes the laws of the layout (R5, R6, R8, R10, R35) -/

/-- A band without a fault lies in the panel and in its owner's region, and shares no line with a later one. -/
theorem placeFault_none_of_bandFault {s : State} {l : Layout} {b : Band} {later : List Band} (h : bandFault s l b later = none) :
    placeFault l b later = none := by
  unfold bandFault at h
  split at h
  · exact h
  · split at h
    · cases h
    · split at h
      · cases h
      · split at h
        · cases h
        · assumption

theorem placeFault_eq_none {l : Layout} {b : Band} {later : List Band} (h : placeFault l b later = none) :
    b.first + b.count ≤ l.timing.vdl ∧ b.within (l.regions.get b.key.owner) = true ∧ ∀ c ∈ later, b.shares c = false := by
  unfold placeFault at h
  split at h
  · cases h
  case isFalse hbounds =>
    split at h
    · cases h
    case isFalse hregion =>
      split at h
      · cases h
      case isFalse hoverlap =>
        refine ⟨Nat.le_of_not_lt hbounds, not_not.1 hregion, fun c hc => Bool.eq_false_iff.2 fun hshares => hoverlap ?_⟩
        exact List.any_eq_true.2 ⟨c, hc, hshares⟩

/-- A copy that validation passes keeps the laws R3, R5, R6, R8 and R10. -/
theorem layoutOk_of_validate {s : State} {l : Layout} (h : validate s l = none) (hordered : BandsOrdered l.bands) :
    LayoutOk l := by
  have hfault : firstBandFault s l l.bands = none := by
    cases hf : firstBandFault s l l.bands with
    | none => rfl
    | some f =>
      rw [validate, hf] at h
      cases h
  rw [validate_of_passes hfault] at h
  split at h
  · cases h
  case isFalse hcount =>
    split at h
    · cases h
    case isFalse hrange =>
      have hplace : ∀ {ahead b later}, l.bands = ahead ++ b :: later → _ := fun heq =>
        placeFault_eq_none (placeFault_none_of_bandFault (firstBandFault_eq_none.1 hfault _ _ _ heq))
      refine ⟨fun b hb => ?_, ?_, hordered.keys, not_not.1 hcount, not_not.1 hrange⟩
      · obtain ⟨ahead, later, heq⟩ := List.append_of_mem hb
        obtain ⟨hbounds, hregion, -⟩ := hplace heq
        exact ⟨hordered.counts b hb, hbounds, hregion⟩
      · have hapart : ∀ bs : List Band, bs.IsSuffix l.bands → bs.Pairwise fun a b => a.first + a.count ≤ b.first := by
          intro bs
          induction bs with
          | nil => exact fun _ => List.Pairwise.nil
          | cons b later ih =>
            rintro ⟨ahead, heq⟩
            have hsuffix : later.IsSuffix l.bands := ⟨ahead ++ [b], by rw [← heq]; simp⟩
            refine List.pairwise_cons.2 ⟨fun c hc => ?_, ih hsuffix⟩
            obtain ⟨-, -, hshares⟩ := hplace heq.symm
            have hbefore : b.before c = true :=
              (List.pairwise_cons.1 (hordered.sorted.sublist (List.IsSuffix.sublist ⟨ahead, heq⟩))).1 c hc
            have hnot := hshares c hc
            have hcount := hordered.counts c (hsuffix.subset hc)
            rw [before_iff] at hbefore
            simp only [Band.shares, Bool.and_eq_false_iff, decide_eq_false_iff_not] at hnot
            omega
        exact hapart l.bands (List.suffix_refl _)

/-! ### The layout controller's laws (R19 to R22) -/

/-- The laws of the active layout, and the edits that ports have staged and submitted. -/
def LayoutControlLaw (l : LayoutController) : Prop :=
  LayoutOk l.active ∧ (∀ p, EditsOk p (l.staging.get p)) ∧ ∀ e ∈ l.queue, EntryEditsOk e

/-- A layout loses bands (R44). -/
theorem LayoutOk.filter {l : Layout} (h : LayoutOk l) (keep : Band → Bool) : LayoutOk { l with bands := l.bands.filter keep } := by
  have hsub : (l.bands.filter keep).Sublist l.bands := List.filter_sublist
  refine ⟨fun b hb => h.bands b (hsub.subset hb), h.apart.sublist hsub, h.keys.sublist (hsub.map _), ?_, h.timing⟩
  have hcount := bandCountOk_iff.1 h.count
  refine bandCountOk_iff.2 ⟨hsub.length_le.trans hcount.1, fun p => ?_⟩
  exact (List.Sublist.length_le (hsub.filter _)).trans (hcount.2 p)

theorem layoutOk_applyEntries (es : List QueueEntry) : ∀ {s : State}, LayoutOk s.layout.active → (∀ e ∈ es, EntryEditsOk e) →
    LayoutOk (applyEntries es s).1.layout.active := by
  induction es with
  | nil => exact fun h _ => h
  | cons e es ih =>
    intro s h hes
    have hrest : ∀ x ∈ es, EntryEditsOk x := fun x hx => hes x (List.mem_cons_of_mem _ hx)
    have he := hes e List.mem_cons_self
    rw [applyEntries]
    split
    · exact ih h hrest
    · refine ih (s := (applyEntry e s).1) ?_ hrest
      cases e with
      | withdrawal p =>
        rw [applyEntry, applyWithdrawal_frame]
        exact h.filter _
      | transaction x =>
        rw [applyEntry]
        cases hedits : applyEdits x.port x.edits (Tentative.start s.layout.active) with
        | error k =>
          rw [applyTransaction_noBand hedits]
          exact h
        | ok v =>
          cases hv : validate s v.copy with
          | some f =>
            rw [applyTransaction_failed hedits hv]
            exact h
          | none =>
            rw [applyTransaction_accepted hedits hv, acceptCopy_layout]
            exact layoutOk_of_validate hv (h.ordered.applyEdits he hedits)

/-- One pass over the queue (R28). -/
theorem LayoutControlLaw.applicationPass {s : State} (h : LayoutControlLaw s.layout) :
    LayoutControlLaw (applicationPass s).1.layout := by
  obtain ⟨hactive, hstaged, hqueued⟩ := h
  refine ⟨layoutOk_applyEntries _ (s := s.setQueue _) hactive hqueued, ?_, ?_⟩
  · rw [Machine.applicationPass, applyEntries_frame]
    exact hstaged
  · rw [applicationPass_queue]
    exact fun e he => hqueued e (List.mem_filter.1 he).1

end Sys2Proof.Machine
end


section
/-! PROOFS. The timing generator and the power sequencer through the panel's events (R107 to R118, R134 to R146). -/

namespace Sys2Proof.Machine

/-- The session of a port is OPEN. -/
def OpenAt (s : State) (p : Port) : Prop := (s.sessions.get p).state = .opened

/-- The port's vote is present (R134). -/
def VoteAt (s : State) (p : Port) : Prop := (s.power.votes.get p).isSome = true

/-! ### The laws of the sequencer -/

/-- The times and the count in progress fit a byte, and the tail is at least one frame (R137). -/
def CountsOk (q : PowerSequencer) : Prop :=
  q.lead ≤ 255 ∧ 1 ≤ q.tail ∧ q.tail ≤ 255 ∧ q.frameCount ≤ 255 ∧ q.target ≤ 255

/-- The count in progress has not reached its target. -/
def Counting (q : PowerSequencer) : Prop := q.frameCount = 0 ∨ q.frameCount < q.target

/-- The states the sequencer can be in, with the generator's run state and stop-pending mark, and with demand (R138 to R144). -/
inductive PowerCase (q : PowerSequencer) : RunState → Bool → Bool → Prop
  | dark : q.state = .dark → q.stopRequested = false → PowerCase q .stopped false false
  | lead : q.state = .logicLead → q.stopRequested = false → Counting q → PowerCase q .running false true
  | lit (wanted : Bool) : q.state = .lit → q.stopRequested = false → PowerCase q .running false wanted
  | held : q.state = .logicHeld → q.stopRequested = false → PowerCase q .running false true
  | tail : q.state = .logicTail → q.stopRequested = false → Counting q → PowerCase q .running false false
  | stopping (wanted : Bool) : q.state = .logicLead ∨ q.state = .logicTail → q.stopRequested = true →
    PowerCase q .running true wanted

/-- The inhibit, the votes and the times do not matter to the case. -/
theorem PowerCase.congr {q q' : PowerSequencer} {run : RunState} {stop wanted : Bool} (h : PowerCase q run stop wanted)
    (hstate : q'.state = q.state) (hreq : q'.stopRequested = q.stopRequested) (hcount : q'.frameCount = q.frameCount)
    (htarget : q'.target = q.target) : PowerCase q' run stop wanted := by
  have hcounting : Counting q → Counting q' := fun h => by rwa [Counting, hcount, htarget]
  cases h with
  | dark h1 h2 => exact .dark (hstate.trans h1) (hreq.trans h2)
  | lead h1 h2 h3 => exact .lead (hstate.trans h1) (hreq.trans h2) (hcounting h3)
  | lit _ h1 h2 => exact .lit _ (hstate.trans h1) (hreq.trans h2)
  | held h1 h2 => exact .held (hstate.trans h1) (hreq.trans h2)
  | tail h1 h2 h3 => exact .tail (hstate.trans h1) (hreq.trans h2) (hcounting h3)
  | stopping _ h1 h2 => exact .stopping _ (by rwa [hstate]) (hreq.trans h2)

/-- The laws of the power sequencer but for that of the votes. -/
structure SequencerLaw (s : State) : Prop where
  counts : CountsOk s.power
  case : PowerCase s.power s.timing.run s.timing.stopPending (demand s)

theorem powerLaw_of_sequencer {s : State} (h : SequencerLaw s) (hvotes : ∀ p, OpenAt s p ↔ VoteAt s p) : PowerLaw s := by
  obtain ⟨hcounts, hcase⟩ := h
  obtain ⟨run, hrun⟩ : ∃ run, s.timing.run = run := ⟨_, rfl⟩
  obtain ⟨stop, hstop⟩ : ∃ stop, s.timing.stopPending = stop := ⟨_, rfl⟩
  obtain ⟨wanted, hwanted⟩ : ∃ wanted, demand s = wanted := ⟨_, rfl⟩
  rw [hrun, hstop, hwanted] at hcase
  cases hcase with
  | stopping _ hstate hreq =>
    constructor
    case votes => exact hvotes
    case counts => exact hcounts
    all_goals obtain hstate | hstate := hstate <;> simp [hstate, hreq, hrun, hstop]
  | lead hstate hreq hcount | tail hstate hreq hcount =>
    constructor
    case votes => exact hvotes
    case counts => exact hcounts
    case counting => exact fun _ _ => hcount
    all_goals simp [hstate, hreq, hrun, hstop, hwanted]
  | dark hstate hreq | lit _ hstate hreq | held hstate hreq =>
    constructor
    case votes => exact hvotes
    case counts => exact hcounts
    all_goals simp [hstate, hreq, hrun, hstop, hwanted]

theorem PowerLaw.sequencer {s : State} (h : PowerLaw s) : SequencerLaw s := by
  obtain ⟨hdark, hmark, hmarked, hquiet, hlead, hheld, htail, -, hcounts, hcounting⟩ := h
  refine ⟨hcounts, ?_⟩
  rw [← hmark]
  cases hreq : s.power.stopRequested with
  | true =>
    have hstate := hmarked hreq
    have hrun : s.timing.run = .running := by
      cases hr : s.timing.run with
      | running => rfl
      | stopped =>
        have := hdark.2 hr
        obtain h | h := hstate <;> rw [this] at h <;> cases h
    rw [hrun]
    exact .stopping _ hstate hreq
  | false =>
    have hrun : s.power.state ≠ .dark → s.timing.run = .running := fun hne => by
      cases hr : s.timing.run with
      | running => rfl
      | stopped => exact absurd (hdark.2 hr) hne
    cases hstate : s.power.state with
    | dark =>
      rw [hdark.1 hstate, hquiet hstate]
      exact .dark hstate hreq
    | logicLead =>
      rw [hrun (by rw [hstate]; decide), hlead hstate hreq]
      exact .lead hstate hreq (hcounting (.inl hstate) hreq)
    | lit =>
      rw [hrun (by rw [hstate]; decide)]
      exact .lit _ hstate hreq
    | logicHeld =>
      rw [hrun (by rw [hstate]; decide), hheld hstate]
      exact .held hstate hreq
    | logicTail =>
      rw [hrun (by rw [hstate]; decide), htail hstate hreq]
      exact .tail hstate hreq (hcounting (.inr hstate) hreq)

theorem SequencerLaw.congr {s t : State} (h : SequencerLaw s) (hpower : t.power = s.power) (hrun : t.timing.run = s.timing.run)
    (hstop : t.timing.stopPending = s.timing.stopPending) : SequencerLaw t := by
  have hdemand : demand t = demand s := demand_congr (by rw [hpower])
  obtain ⟨hcounts, hcase⟩ := h
  exact ⟨by rwa [hpower], by rwa [hpower, hrun, hstop, hdemand]⟩

theorem TimingLaw.congr {s t : State} (h : TimingLaw s) (hlayout : t.layout.active.timing = s.layout.active.timing)
    (htiming : t.timing = s.timing) : TimingLaw t := by
  obtain ⟨h1, h2, h3, h4, h5, h6, h7⟩ := h
  exact ⟨by rw [TimingAgrees, hlayout, htiming]; exact h1, by rwa [htiming], by rwa [htiming], by rwa [htiming], by rwa [htiming],
    by rwa [htiming], by rwa [htiming]⟩

/-- The stop-pending mark alone may differ, while the generator runs. -/
theorem TimingLaw.setStop {s t : State} (h : TimingLaw s) (hlayout : t.layout.active.timing = s.layout.active.timing) {b : Bool}
    (hrun : s.timing.run = .running) (htiming : t.timing = { s.timing with stopPending := b }) : TimingLaw t := by
  obtain ⟨h1, h2, h3, h4, -, h6, h7⟩ := h
  refine ⟨by rw [TimingAgrees, hlayout, htiming]; exact h1, by rwa [htiming], by rwa [htiming], by rwa [htiming], fun hs => ?_,
    by rwa [htiming], by rwa [htiming]⟩
  rw [htiming] at hs
  rw [hrun] at hs
  cases hs

theorem one_le_vdl {t : Timing} (h : timingInRange t = true) : 1 ≤ t.vdl := by
  obtain ⟨-, -, -, -, -, hvdl, -⟩ := timingInRange_iff.1 h
  exact hvdl

/-- FRAME_START puts the pending parameters into effect and begins line 0 (R108, R113). -/
theorem TimingLaw.frameStart {s t : State} (h : TimingLaw s) (hlayout : t.layout.active.timing = s.layout.active.timing)
    (hrun : t.timing.run = .running) (hperiod : t.timing.period = .display) (hline : t.timing.line = 0)
    (hactive : t.timing.active = s.timing.pending.getD s.timing.active) (hpending : t.timing.pending = none) : TimingLaw t := by
  have hrange : timingInRange t.timing.active = true := by
    rw [hactive]
    cases hp : s.timing.pending with
    | none => exact h.active
    | some tm => exact h.pending tm hp
  have hvdl := one_le_vdl hrange
  refine ⟨?_, hrange, fun tm htm => ?_, fun _ _ => hpending, fun hs => ?_, fun _ => ?_, fun _ => ⟨fun _ => ?_, fun _ => hperiod⟩⟩
  · rw [TimingAgrees, hlayout, hpending, hactive]
    exact h.agrees
  · rw [hpending] at htm
    cases htm
  · rw [hrun] at hs
    cases hs
  · rw [hline]
    omega
  · rw [hline]
    omega

/-! ### Steps at the panel -/

/-- A change at the timing generator and the power sequencer that keeps their laws; the vote of an OPEN session stays present, and a vote
appears at an OPEN session alone. -/
structure PanelStep (s t : State) : Prop where
  frame : t =
    { s with
      timing := t.timing, power := t.power, fresh := t.fresh, scan := t.scan, notices := t.notices, draws := t.draws
      arb := { s.arb with lineFetch := t.arb.lineFetch } }
  laws : TimingLaw s → SequencerLaw s → TimingLaw t ∧ SequencerLaw t
  stays : ∀ p, OpenAt s p → VoteAt s p → VoteAt t p
  appears : ∀ p, VoteAt t p → VoteAt s p ∨ OpenAt s p

/-- A step of the generator that does not start or stop. -/
theorem panelStep_of_generator {s t : State}
    (hframe : t =
      { s with
        timing := t.timing, fresh := t.fresh, scan := t.scan, notices := t.notices, draws := t.draws
        arb := { s.arb with lineFetch := t.arb.lineFetch } })
    (hrun : t.timing.run = s.timing.run) (hstop : t.timing.stopPending = s.timing.stopPending)
    (htiming : TimingLaw s → TimingLaw t) : PanelStep s t := by
  have hpower : t.power = s.power := by rw [hframe]
  refine ⟨hframe.trans (by rw [hpower]), fun h h' => ⟨htiming h, h'.congr hpower hrun hstop⟩, fun p _ hv => ?_, fun p hv => .inl ?_⟩
  · rwa [VoteAt, hpower]
  · rwa [VoteAt, hpower] at hv

/-- LINE_START (R110). -/
theorem execLineStart_panel {s t : State} (h : execLineStart s = .next t) : t = s ∨ PanelStep s t := by
  unfold execLineStart at h
  dsimp only at h
  split at h
  case isTrue hplain =>
    obtain ⟨⟨hrun, -⟩, hne, hlt⟩ := atPlainLine_iff.1 hplain
    have hlaw : ∀ {u : State}, u.layout = s.layout → u.timing = { s.timing with line := s.timing.line + 1, part := .sync } →
        TimingLaw s → TimingLaw u := fun hl ht hs => by
      obtain ⟨h1, h2, h3, h4, h5, -, h7⟩ := hs
      refine ⟨by rw [TimingAgrees, hl, ht]; exact h1, by rwa [ht], by rwa [ht], by rwa [ht], by rwa [ht], fun _ => ?_, fun hr => ?_⟩
      · rw [ht]
        exact hlt
      · rw [ht]
        refine (h7 hrun).trans ?_
        dsimp only
        omega
    split at h
    · cases h
      right
      refine panelStep_of_generator ?_ ?_ ?_ (hlaw ?_ ?_) <;> rw [sourceLine_frame]
    · cases h
      exact .inr (panelStep_of_generator rfl rfl rfl (hlaw rfl rfl))
  case isFalse =>
    cases h
    exact .inl rfl

/-- FRAME_START of a running generator (R113). -/
theorem takeFrameStart_panel {s : State} (h : frameStartDue s = true) : PanelStep s (takeFrameStart s) := by
  obtain ⟨hend, -⟩ := Bool.and_eq_true_iff.1 h
  obtain ⟨⟨hrun, -⟩, -⟩ := atFrameEnd_iff.1 hend
  have hframe : takeFrameStart s = { (beginFrame s).1 with notices := (takeFrameStart s).notices } := deliver_frame _ _
  have hbegin := beginFrame_frame s
  rw [takePending_eq] at hbegin
  refine panelStep_of_generator ?_ ?_ ?_ fun hs => hs.frameStart ?_ ?_ ?_ ?_ ?_ ?_
  · rw [hframe, hbegin]
  all_goals
    rw [hframe, hbegin]
  exact hrun

/-- The generator's part of VBLANK_START (R114). -/
theorem generatorVblank_panel {s : State} (h : atVblank s = true) : PanelStep s (generatorVblank s) := by
  obtain ⟨-, hline⟩ := atVblank_iff.1 h
  refine panelStep_of_generator rfl rfl rfl fun ⟨h1, h2, h3, h4, h5, h6, h7⟩ => ⟨h1, h2, h3, fun _ hd => ?_, h5, fun hr => ?_, fun _ => ?_⟩
  · cases hd
  · obtain ⟨-, -, -, -, -, -, -, hvnd, -⟩ := timingInRange_iff.1 h2
    simp only [generatorVblank]
    omega
  · refine iff_of_false (fun hd => by cases hd) ?_
    simp only [generatorVblank]
    omega

/-! ### The sequencer's events -/

theorem sequencerLaw_of_case {t : State} {q : PowerSequencer} {run : RunState} {stop wanted : Bool} (hpower : t.power = q)
    (hrun : t.timing.run = run) (hstop : t.timing.stopPending = stop) (hwanted : demand t = wanted) (hcounts : CountsOk q)
    (hcase : PowerCase q run stop wanted) : SequencerLaw t :=
  ⟨by rwa [hpower], by rwa [hpower, hrun, hstop, hwanted]⟩

theorem powerAfterVblank_votes (s : State) : (powerAfterVblank s).votes = s.power.votes := by
  simp only [powerAfterVblank]
  split <;> (repeat' split) <;> rfl

/-- VBLANK_START at the sequencer (R140, R141, R143). -/
theorem SequencerLaw.vblank {s t : State} (h : SequencerLaw s) (hrun : s.timing.run = .running)
    (hpower : t.power = powerAfterVblank s) (hrun' : t.timing.run = .running)
    (hstop : t.timing.stopPending = true ↔ s.timing.stopPending = true ∨
      (s.power.state = .logicTail ∧ s.power.stopRequested = false ∧ s.power.target ≤ s.power.frameCount + 1)) :
    SequencerLaw t := by
  obtain ⟨hcounts, hcase⟩ := h
  have ⟨hl, ht1, ht2, hfc, htg⟩ := hcounts
  have hdemand : demand t = demand s := demand_congr (by rw [hpower, powerAfterVblank_votes])
  obtain ⟨stop, hs⟩ : ∃ stop, s.timing.stopPending = stop := ⟨_, rfl⟩
  obtain ⟨wanted, hw⟩ : ∃ wanted, demand s = wanted := ⟨_, rfl⟩
  rw [hrun, hs, hw] at hcase
  rw [hw] at hdemand
  rw [hs] at hstop
  have hkept : ¬(s.power.state = .logicTail ∧ s.power.stopRequested = false ∧ s.power.target ≤ s.power.frameCount + 1) →
      t.timing.stopPending = stop := fun hnot => by
    rw [Bool.eq_iff_iff, hstop]
    exact or_iff_left hnot
  cases hcase with
  | lead hstate hreq hcount =>
    have hsame := hkept fun ⟨h, _⟩ => by rw [hstate] at h; cases h
    unfold Counting at hcount
    by_cases hreach : s.power.target ≤ s.power.frameCount + 1
    · have hnext : CountsOk { s.power with frameCount := s.power.frameCount + 1 } := ⟨hl, ht1, ht2, by dsimp only; omega, htg⟩
      cases hinh : s.power.inhibit with
      | false =>
        simp only [powerAfterVblank, hstate, hreq, hinh, if_pos hreach, Bool.false_eq_true, if_false] at hpower
        exact sequencerLaw_of_case hpower hrun' hsame hdemand hnext (.lit _ rfl rfl)
      | true =>
        simp only [powerAfterVblank, hstate, hreq, hinh, if_pos hreach, Bool.false_eq_true, if_false, if_true] at hpower
        exact sequencerLaw_of_case hpower hrun' hsame hdemand hnext (.held rfl rfl)
    · simp only [powerAfterVblank, hstate, hreq, if_neg hreach, Bool.false_eq_true, if_false] at hpower
      exact sequencerLaw_of_case hpower hrun' hsame hdemand ⟨hl, ht1, ht2, by dsimp only; omega, htg⟩
        (.lead rfl rfl (.inr (by dsimp only; omega)))
  | lit _ hstate hreq =>
    have hsame := hkept fun ⟨h, _⟩ => by rw [hstate] at h; cases h
    cases wanted with
    | false =>
      simp only [powerAfterVblank, hstate, hw, if_true] at hpower
      exact sequencerLaw_of_case hpower hrun' hsame hdemand ⟨hl, ht1, ht2, Nat.zero_le _, ht2⟩ (.tail rfl hreq (.inl rfl))
    | true =>
      cases hinh : s.power.inhibit with
      | false =>
        simp only [powerAfterVblank, hstate, hw, hinh, Bool.true_eq_false, Bool.false_eq_true, if_false] at hpower
        exact sequencerLaw_of_case hpower hrun' hsame hdemand hcounts (.lit _ hstate hreq)
      | true =>
        simp only [powerAfterVblank, hstate, hw, hinh, Bool.true_eq_false, if_false, if_true] at hpower
        exact sequencerLaw_of_case hpower hrun' hsame hdemand hcounts (.held rfl hreq)
  | held hstate hreq =>
    have hsame := hkept fun ⟨h, _⟩ => by rw [hstate] at h; cases h
    simp only [powerAfterVblank, hstate] at hpower
    exact sequencerLaw_of_case hpower hrun' hsame hdemand hcounts (.held hstate hreq)
  | tail hstate hreq hcount =>
    unfold Counting at hcount
    by_cases hreach : s.power.target ≤ s.power.frameCount + 1
    · simp only [powerAfterVblank, hstate, hreq, if_pos hreach, Bool.false_eq_true, if_false] at hpower
      exact sequencerLaw_of_case hpower hrun' (hstop.2 (.inr ⟨hstate, hreq, hreach⟩)) hdemand
        ⟨hl, ht1, ht2, by dsimp only; omega, htg⟩ (.stopping _ (.inr rfl) rfl)
    · simp only [powerAfterVblank, hstate, hreq, if_neg hreach, Bool.false_eq_true, if_false] at hpower
      exact sequencerLaw_of_case hpower hrun' (hkept fun ⟨_, _, h⟩ => hreach h) hdemand
        ⟨hl, ht1, ht2, by dsimp only; omega, htg⟩ (.tail rfl rfl (.inr (by dsimp only; omega)))
  | stopping _ hstate hreq =>
    have hp : t.power = s.power := by
      rw [hpower]
      obtain hstate | hstate := hstate <;> simp only [powerAfterVblank, hstate, hreq, if_true]
    exact sequencerLaw_of_case hp hrun' (hstop.2 (.inl rfl)) hdemand hcounts (.stopping _ hstate hreq)

/-- A step at the sequencer after which the vote of every port is present when it was. -/
theorem panelStep_of_votes {s t : State}
    (hframe : t =
      { s with
        timing := t.timing, power := t.power, fresh := t.fresh, scan := t.scan, notices := t.notices, draws := t.draws
        arb := { s.arb with lineFetch := t.arb.lineFetch } })
    (hvotes : t.power.votes = s.power.votes) (hlaws : TimingLaw s → SequencerLaw s → TimingLaw t ∧ SequencerLaw t) :
    PanelStep s t := by
  refine ⟨hframe, hlaws, fun p _ hv => ?_, fun p hv => .inl ?_⟩
  · rwa [VoteAt, hvotes]
  · rwa [VoteAt, hvotes] at hv

/-- The sequencer's part of VBLANK_START, with the notices of the event. -/
theorem powerVblank_panel {s : State} (hrun : s.timing.run = .running) (xs ys : List Posting) :
    PanelStep s (deliverAny xs (powerVblank s).posts ys (powerVblank s).state) := by
  have hstep := vblankStep_powerVblank hrun
  have hframe := hstep.frame
  have hpower : (powerVblank s).state.power = powerAfterVblank s := by rw [hframe]
  refine panelStep_of_votes ?_ ?_ fun hs hseq => ⟨hs.setStop (b := (powerVblank s).state.timing.stopPending) ?_ hrun ?_, hseq.vblank hrun ?_ ?_ ?_⟩
  · rw [deliverAny_frame, hframe]
  · rw [deliverAny_power, hpower, powerAfterVblank_votes]
  · rw [deliverAny_layout, hframe]
  · rw [deliverAny_timing]
    exact congrArg State.timing hframe
  · rw [deliverAny_power, hpower]
  · rw [deliverAny_timing, hframe]
    exact hrun
  · rw [deliverAny_timing]
    exact hstep.stop

/-- A change of demand at the sequencer (R135, R139, R140, R142, R143). -/
theorem SequencerLaw.vote {s t : State} {votes : PerPort (Option Vote)} {after : Bool} (h : SequencerLaw s)
    (hafter : demand t = after) (hc : VoteChanged s votes (demand s) after t) : SequencerLaw t := by
  obtain ⟨hcounts, hcase⟩ := h
  have ⟨hl, ht1, ht2, hfc, htg⟩ := hcounts
  obtain ⟨hframe, hstarts, hstops, hsame, -⟩ := hc
  have hpower : t.power = powerAfterVote s votes (demand s) after := by rw [hframe]
  obtain ⟨run, hrun⟩ : ∃ run, s.timing.run = run := ⟨_, rfl⟩
  obtain ⟨stop, hstop⟩ : ∃ stop, s.timing.stopPending = stop := ⟨_, rfl⟩
  obtain ⟨wanted, hw⟩ : ∃ wanted, demand s = wanted := ⟨_, rfl⟩
  rw [hw] at hstarts hstops hsame hpower
  have hquiet : ¬StartsAtDemand s wanted after → ¬StopsAtLoss s wanted after → t.timing.run = run ∧ t.timing.stopPending = stop :=
    fun h1 h2 => by rw [hsame h1 h2]; exact ⟨hrun, hstop⟩
  rw [hrun, hstop, hw] at hcase
  cases hcase with
  | dark hstate hreq =>
    cases after with
    | true =>
      obtain ⟨htiming, -⟩ := hstarts ⟨hstate, hrun, rfl, rfl⟩
      simp only [powerAfterVote, hstate, Bool.false_eq_true, if_false, if_true] at hpower
      exact sequencerLaw_of_case hpower (by rw [htiming]) (by rw [htiming]; exact hstop) hafter ⟨hl, ht1, ht2, Nat.zero_le _, hl⟩
        (.lead rfl hreq (.inl rfl))
    | false =>
      obtain ⟨hr, hs⟩ := hquiet (fun ⟨_, _, _, h⟩ => by cases h) fun ⟨_, _, h, _⟩ => by cases h
      simp only [powerAfterVote, if_true] at hpower
      exact sequencerLaw_of_case hpower hr hs hafter hcounts (.dark hstate hreq)
  | lead hstate hreq hcount =>
    cases after with
    | true =>
      obtain ⟨hr, hs⟩ := hquiet (fun ⟨_, _, h, _⟩ => by cases h) fun ⟨_, _, _, h⟩ => by cases h
      simp only [powerAfterVote, if_true] at hpower
      exact sequencerLaw_of_case hpower hr hs hafter hcounts (.lead hstate hreq hcount)
    | false =>
      have htiming := hstops ⟨hstate, hreq, rfl, rfl⟩
      simp only [stopRequest, hrun] at htiming
      simp only [powerAfterVote, hstate, hreq, Bool.true_eq_false, Bool.false_eq_true, if_false] at hpower
      exact sequencerLaw_of_case hpower (by rw [htiming]) (by rw [htiming]) hafter hcounts (.stopping _ (.inl rfl) rfl)
  | lit _ hstate hreq =>
    obtain ⟨hr, hs⟩ := hquiet (fun ⟨h, _⟩ => by rw [hstate] at h; cases h) fun ⟨h, _⟩ => by rw [hstate] at h; cases h
    have hp : t.power = { s.power with votes := votes } := by
      rw [hpower]
      simp only [powerAfterVote, hstate]
      split
      · rfl
      · split <;> rfl
    exact sequencerLaw_of_case hp hr hs hafter hcounts (.lit _ hstate hreq)
  | held hstate hreq =>
    obtain ⟨hr, hs⟩ := hquiet (fun ⟨h, _⟩ => by rw [hstate] at h; cases h) fun ⟨h, _⟩ => by rw [hstate] at h; cases h
    cases after with
    | true =>
      simp only [powerAfterVote, if_true] at hpower
      exact sequencerLaw_of_case hpower hr hs hafter hcounts (.held hstate hreq)
    | false =>
      simp only [powerAfterVote, hstate, Bool.true_eq_false, Bool.false_eq_true, if_false] at hpower
      exact sequencerLaw_of_case hpower hr hs hafter ⟨hl, ht1, ht2, Nat.zero_le _, ht2⟩ (.tail rfl hreq (.inl rfl))
  | tail hstate hreq hcount =>
    obtain ⟨hr, hs⟩ := hquiet (fun ⟨h, _⟩ => by rw [hstate] at h; cases h) fun ⟨h, _⟩ => by rw [hstate] at h; cases h
    cases after with
    | true =>
      simp only [powerAfterVote, hstate, hreq, Bool.false_eq_true, if_false, if_true] at hpower
      exact sequencerLaw_of_case hpower hr hs hafter ⟨hl, ht1, ht2, Nat.zero_le _, hl⟩ (.lead rfl rfl (.inl rfl))
    | false =>
      simp only [powerAfterVote, if_true] at hpower
      exact sequencerLaw_of_case hpower hr hs hafter hcounts (.tail hstate hreq hcount)
  | stopping _ hstate hreq =>
    have hp : t.power = { s.power with votes := votes } := by
      rw [hpower]
      obtain hstate | hstate := hstate <;> simp only [powerAfterVote, hstate, hreq, if_true] <;> split <;> (try split) <;> rfl
    obtain ⟨hr, hs⟩ := hquiet (fun ⟨h, _⟩ => by obtain hstate | hstate := hstate <;> rw [hstate] at h <;> cases h)
      fun ⟨_, h, _⟩ => by rw [hreq] at h; cases h
    exact sequencerLaw_of_case hp hr hs hafter hcounts (.stopping _ hstate hreq)

/-- A change of vote keeps the generator's law (R112, R118, R135). -/
theorem TimingLaw.vote {s t : State} {votes : PerPort (Option Vote)} {before after : Bool} (h : TimingLaw s)
    (hc : VoteChanged s votes before after t) : TimingLaw t := by
  obtain ⟨hframe, hstarts, hstops, hsame, -⟩ := hc
  have hlayout : t.layout.active.timing = s.layout.active.timing := by rw [hframe]
  by_cases h1 : StartsAtDemand s before after
  · obtain ⟨htiming, -⟩ := hstarts h1
    exact h.frameStart hlayout (by rw [htiming]) (by rw [htiming]) (by rw [htiming]) (by rw [htiming]) (by rw [htiming])
  · by_cases h2 : StopsAtLoss s before after
    · have htiming := hstops h2
      cases hrun : s.timing.run with
      | running =>
        exact h.setStop hlayout hrun (b := true) (htiming.trans (by simp only [stopRequest, hrun]))
      | stopped =>
        simp only [stopRequest, hrun] at htiming
        exact h.congr hlayout htiming
    · exact h.congr hlayout (hsame h1 h2)

theorem changeVote_votes (p : Port) (v : Option Vote) (s : State) :
    (changeVote p v s).power.votes = s.power.votes.set p v := by
  rw [(changeVote_voteChanged p v s).frame]
  exact powerAfterVote_votes _ _ _ _

/-- A change of vote: an absent one at a session that is not OPEN, or a present one at one that is. -/
theorem changeVote_panel {p : Port} {v : Option Vote} {s : State} (h : v.isSome = true ↔ OpenAt s p) :
    PanelStep s (changeVote p v s) := by
  have hc := changeVote_voteChanged p v s
  have hvotes := changeVote_votes p v s
  refine ⟨?_, fun hs hseq => ⟨hs.vote hc, hseq.vote ?_ hc⟩, fun q hopen hv => ?_, fun q hv => ?_⟩
  · have hframe := hc.frame
    rw [hframe]
  · exact demand_congr hvotes
  · rw [VoteAt, hvotes, PerPort.get_set]
    split
    case isTrue hq =>
      subst hq
      exact h.2 hopen
    case isFalse => exact hv
  · rw [VoteAt, hvotes, PerPort.get_set] at hv
    split at hv
    case isTrue hq =>
      subst hq
      exact .inr (h.1 hv)
    case isFalse => exact .inl hv

theorem PanelStep.told {s u : State} (h : PanelStep s u) (xs ys zs : List Posting) : PanelStep s (deliverAny xs ys zs u) := by
  obtain ⟨hframe, hlaws, hstays, happears⟩ := h
  have hpower := deliverAny_power xs ys zs u
  have htiming := deliverAny_timing xs ys zs u
  refine ⟨?_, fun hs hseq => ?_, fun p hopen hv => ?_, fun p hv => happears p ?_⟩
  · rw [deliverAny_frame, hframe]
  · obtain ⟨ht, hq⟩ := hlaws hs hseq
    exact ⟨ht.congr (by rw [deliverAny_layout]) htiming, hq.congr hpower (by rw [htiming]) (by rw [htiming])⟩
  · rw [VoteAt, hpower]
    exact hstays p hopen hv
  · rwa [VoteAt, hpower] at hv

/-- SUP_INHIBIT (R136, R142). -/
theorem changeInhibit_panel (v : Bool) (s : State) : PanelStep s (changeInhibit v s) := by
  unfold changeInhibit
  dsimp only
  split
  case isTrue h =>
    obtain ⟨-, -, hheld, hwanted⟩ := h
    rw [finishPower_quiet (.inl rfl)]
    refine PanelStep.told ?_ _ _ _
    refine panelStep_of_votes rfl rfl fun hs hseq => ⟨hs.congr rfl rfl, ?_⟩
    obtain ⟨⟨hl, ht1, ht2, -, -⟩, hcase⟩ := hseq
    obtain ⟨run, hrun⟩ : ∃ run, s.timing.run = run := ⟨_, rfl⟩
    obtain ⟨stop, hstop⟩ : ∃ stop, s.timing.stopPending = stop := ⟨_, rfl⟩
    rw [hrun, hstop, hwanted] at hcase
    cases hcase with
    | held _ hreq =>
      exact sequencerLaw_of_case rfl hrun hstop hwanted ⟨hl, ht1, ht2, Nat.zero_le _, hl⟩ (.lead rfl hreq (.inl rfl))
    | lead hstate | lit _ hstate =>
      rw [hheld] at hstate
      cases hstate
    | stopping _ hstate =>
      rw [hheld] at hstate
      obtain h | h := hstate <;> cases h
  case isFalse =>
    refine panelStep_of_votes rfl rfl fun hs hseq => ⟨hs.congr rfl rfl, ?_⟩
    obtain ⟨hcounts, hcase⟩ := hseq
    refine ⟨hcounts, ?_⟩
    change PowerCase _ s.timing.run s.timing.stopPending (demand s)
    exact hcase.congr rfl rfl rfl rfl

/-- SUP_POWER_TIMES (R137). -/
theorem powerTimes_panel {s : State} {lead tail : Nat} (hl : lead ≤ 255) (ht1 : 1 ≤ tail) (ht2 : tail ≤ 255) :
    PanelStep s { s with power := { s.power with lead := lead, tail := tail } } := by
  refine panelStep_of_votes rfl rfl fun hs hseq => ⟨hs.congr rfl rfl, ?_⟩
  obtain ⟨⟨-, -, -, hfc, htg⟩, hcase⟩ := hseq
  exact ⟨⟨hl, ht1, ht2, hfc, htg⟩, hcase.congr rfl rfl rfl rfl⟩

/-- The sequencer's settings after DEVICE_RESET (R146). -/
def resetTimes (q : PowerSequencer) : PowerSequencer :=
  { q with votes := PerPort.every none, inhibit := false, lead := 2, tail := 60 }

/-- DEVICE_RESET finds the panel lit, or about to be (R146). -/
def TailsAtReset (s : State) : Prop :=
  s.power.state = .lit ∨ ((s.power.state = .logicLead ∨ s.power.state = .logicHeld) ∧ s.power.stopRequested = false)

/-- DEVICE_RESET at the sequencer starts the tail where the panel is lit or about to be, and changes nothing else but the settings. -/
theorem powerDeviceReset_step (s : State) :
    (powerDeviceReset s).start = false ∧
      (TailsAtReset s →
        (powerDeviceReset s).state =
          { s with power := { resetTimes s.power with state := .logicTail, frameCount := 0, target := 60 } }) ∧
      (¬TailsAtReset s → (powerDeviceReset s).state = { s with power := resetTimes s.power }) := by
  unfold powerDeviceReset TailsAtReset
  dsimp only
  split
  case h_1 h | h_2 h => exact ⟨rfl, by simp [h], fun _ => rfl⟩
  case h_3 h => exact ⟨rfl, fun _ => rfl, by simp [h]⟩
  case h_4 h | h_5 h =>
    split
    case isTrue hreq => exact ⟨rfl, by simp [h, hreq], fun _ => rfl⟩
    case isFalse hreq => exact ⟨rfl, fun _ => rfl, by simp [h, hreq]⟩

/-- The sequencer's part of DEVICE_RESET, when every session has ended (R146). -/
theorem powerDeviceReset_panel {s : State} (hclosed : ∀ p, ¬OpenAt s p) : PanelStep s (finishPower [] (powerDeviceReset s)) := by
  obtain ⟨hstart, htails, hkept⟩ := powerDeviceReset_step s
  rw [finishPower_quiet (.inl hstart)]
  refine PanelStep.told ?_ _ _ _
  have hnone : ∀ {u : State}, u.power.votes = PerPort.every none → demand u = false ∧ ∀ p, ¬VoteAt u p := fun hv => by
    simp [demand, VoteAt, hv, Port.all]
  have hstep : ∀ {q : PowerSequencer}, q.votes = PerPort.every none →
      (SequencerLaw s → CountsOk q ∧ PowerCase q s.timing.run s.timing.stopPending false) → PanelStep s { s with power := q } :=
    fun hv hcase => by
      obtain ⟨hquiet, hgone⟩ := hnone (u := { s with power := _ }) hv
      refine ⟨rfl, fun hs hseq => ⟨hs.congr rfl rfl, ?_⟩, fun p hopen => absurd hopen (hclosed p), fun p h => absurd h (hgone p)⟩
      obtain ⟨hcounts, hcase⟩ := hcase hseq
      exact sequencerLaw_of_case rfl rfl rfl hquiet hcounts hcase
  have hl : 2 ≤ 255 := by decide
  have ht1 : 1 ≤ 60 := by decide
  have ht2 : 60 ≤ 255 := by decide
  by_cases h : TailsAtReset s
  · rw [htails h]
    refine hstep rfl fun ⟨hcounts, hcase⟩ => ⟨⟨hl, ht1, ht2, Nat.zero_le _, ht2⟩, ?_⟩
    have hrun : s.timing.run = .running ∧ s.timing.stopPending = false ∧ s.power.stopRequested = false := by
      obtain ⟨run, hrun⟩ : ∃ run, s.timing.run = run := ⟨_, rfl⟩
      obtain ⟨stop, hstop⟩ : ∃ stop, s.timing.stopPending = stop := ⟨_, rfl⟩
      obtain ⟨wanted, hw⟩ : ∃ wanted, demand s = wanted := ⟨_, rfl⟩
      rw [hrun, hstop] at hcase ⊢
      rw [hw] at hcase
      cases hcase with
      | lead _ hreq | lit _ _ hreq | held _ hreq | tail _ hreq => exact ⟨rfl, rfl, hreq⟩
      | dark hst => simp [TailsAtReset, hst] at h
      | stopping _ hst hreq => obtain hst | hst := hst <;> simp [TailsAtReset, hst, hreq] at h
    obtain ⟨hrun, hstop, hreq⟩ := hrun
    rw [hrun, hstop]
    exact .tail rfl hreq (.inl rfl)
  · rw [hkept h]
    refine hstep rfl fun ⟨⟨_, _, _, hfc, htg⟩, hcase⟩ => ⟨⟨hl, ht1, ht2, hfc, htg⟩, ?_⟩
    refine PowerCase.congr (q := s.power) ?_ rfl rfl rfl rfl
    obtain ⟨run, hrun⟩ : ∃ run, s.timing.run = run := ⟨_, rfl⟩
    obtain ⟨stop, hstop⟩ : ∃ stop, s.timing.stopPending = stop := ⟨_, rfl⟩
    obtain ⟨wanted, hw⟩ : ∃ wanted, demand s = wanted := ⟨_, rfl⟩
    rw [hrun, hstop] at hcase ⊢
    rw [hw] at hcase
    cases hcase with
    | dark hst hreq => exact .dark hst hreq
    | tail hst hreq hcount => exact .tail hst hreq hcount
    | stopping _ hst hreq => exact .stopping _ hst hreq
    | lead hst hreq | lit _ hst hreq | held hst hreq => exact absurd (by simp [TailsAtReset, hst, hreq]) h

/-! ### The pass over the queue -/

/-- The pending parameters are in range. -/
def PendingOk (s : State) : Prop := ∀ tm, s.timing.pending = some tm → timingInRange tm = true

theorem timing_of_validate {s : State} {l : Layout} (h : validate s l = none) : timingInRange l.timing = true := by
  cases hfault : firstBandFault s l l.bands with
  | some f =>
    rw [validate, hfault] at h
    cases h
  | none =>
    rw [validate_of_passes hfault] at h
    split at h
    · cases h
    · split at h
      · cases h
      case isFalse hrange => exact not_not.1 hrange

theorem PendingOk.applyTransaction {s : State} (h : PendingOk s) (x : Transaction) : PendingOk (applyTransaction x s).1 := by
  cases hedits : applyEdits x.port x.edits (Tentative.start s.layout.active) with
  | error k =>
    rw [applyTransaction_noBand hedits]
    exact h
  | ok v =>
    cases hv : validate s v.copy with
    | some f =>
      rw [applyTransaction_failed hedits hv]
      exact h
    | none =>
      rw [applyTransaction_accepted hedits hv]
      intro tm htm
      rw [acceptCopy_pending] at htm
      split at htm
      · cases htm
        exact timing_of_validate hv
      · exact h tm htm

/-- What the entries of a pass keep, one by one, the pass keeps. -/
theorem applyEntries_keep {P : State → Prop} (htransaction : ∀ {s : State} x, P s → P (applyTransaction x s).1)
    (hwithdrawal : ∀ {s : State} p, P s → P (applyWithdrawal p s)) (es : List QueueEntry) :
    ∀ {s : State}, P s → P (applyEntries es s).1 := by
  induction es with
  | nil => exact fun hs => hs
  | cons e es ih =>
    intro s hs
    rw [applyEntries]
    split
    · exact ih hs
    · cases e with
      | transaction x => exact ih (htransaction x hs)
      | withdrawal p => exact ih (hwithdrawal p hs)

theorem PendingOk.applyEntries {s : State} (h : PendingOk s) (es : List QueueEntry) : PendingOk (applyEntries es s).1 := by
  refine applyEntries_keep (P := PendingOk) (fun x hs => hs.applyTransaction x) (fun p hs => ?_) es h
  rw [PendingOk, applyWithdrawal_frame]
  exact hs

/-- The pass in the non-display lines, or while timing is stopped (R28, R45, R108). -/
theorem TimingLaw.applicationPass {s : State} (h : TimingLaw s)
    (hphase : s.timing.run = .running → s.timing.period = .nonDisplay) : TimingLaw (Machine.applicationPass s).1 := by
  have hagrees : TimingAgrees (Machine.applicationPass s).1 :=
    applyEntries_agrees _ (s := s.setQueue (s.layout.queue.filter QueueEntry.held)) h.agrees
  have hpending : PendingOk (Machine.applicationPass s).1 :=
    PendingOk.applyEntries (s := s.setQueue (s.layout.queue.filter QueueEntry.held)) h.pending _
  have htiming : (Machine.applicationPass s).1.timing = { s.timing with pending := (Machine.applicationPass s).1.timing.pending } := by
    unfold Machine.applicationPass
    rw [applyEntries_frame]
    rfl
  obtain ⟨-, h2, -, -, h5, h6, h7⟩ := h
  refine ⟨hagrees, by rwa [htiming], hpending, fun hr hd => ?_, by rwa [htiming], by rwa [htiming], by rwa [htiming]⟩
  rw [htiming] at hr hd
  rw [hphase hr] at hd
  cases hd

/-! ### TIMING_STOPPED -/

theorem stopPass_pending {s : State} (h : PendingOk s) : PendingOk (stopPass s) :=
  PendingOk.applyEntries (s := (generatorStop s).setQueue (s.layout.queue.filter QueueEntry.held)) h _

/-- TIMING_STOPPED leaves the generator stopped and the sequencer dark, or both started again (R112, R117, R144). -/
theorem takeTimingStopped_laws {s : State} (h : TimingLaw s) (hseq : SequencerLaw s) :
    TimingLaw (takeTimingStopped s) ∧ SequencerLaw (takeTimingStopped s) := by
  obtain ⟨⟨hl, ht1, ht2, hfc, htg⟩, -⟩ := hseq
  have hframe := takeTimingStopped_frame s
  have hlayout : (takeTimingStopped s).layout = (stopPass s).layout := by rw [hframe]
  have hagrees : TimingAgrees (stopPass s) := stopPass_agrees h.agrees
  have hpending := stopPass_pending h.pending
  have hactive : (stopPass s).timing.active = s.timing.active := by
    rw [stopPass_frame]
    rfl
  have hwanted : ∀ {q : PowerSequencer}, (takeTimingStopped s).power = q → q.votes = s.power.votes →
      demand (takeTimingStopped s) = demand s := fun hp hv => demand_congr (by rw [hp, hv])
  cases hdemand : demand s with
  | false =>
    obtain ⟨htiming, -, -, hpower, -⟩ := takeTimingStopped_dark hdemand
    have hpass : (passAlone s).timing = (stopPass s).timing := by rw [passAlone_frame]
    rw [hpass] at htiming
    refine ⟨⟨?_, ?_, ?_, fun hr => ?_, fun _ => ?_, fun hr => ?_, fun hr => ?_⟩,
      sequencerLaw_of_case hpower (by rw [htiming]) (by rw [htiming]) ((hwanted hpower rfl).trans hdemand) ⟨hl, ht1, ht2, hfc, htg⟩
        (.dark rfl rfl)⟩
    · rw [TimingAgrees, hlayout, htiming]
      exact hagrees.trans (by rw [hactive])
    · rw [htiming]
      exact h.active
    · rw [htiming]
      exact hpending
    · rw [htiming] at hr
      cases hr
    · rw [htiming]
    · rw [htiming] at hr
      cases hr
    · rw [htiming] at hr
      cases hr
  | true =>
    obtain ⟨htiming, hpower, -⟩ := takeTimingStopped_lead h.agrees hdemand
    have hnew : (takeTimingStopped s).layout.active.timing = (stopPass s).timing.pending.getD (stopPass s).timing.active := by
      rw [hlayout]
      exact hagrees
    have hrange : timingInRange (takeTimingStopped s).timing.active = true := by
      rw [htiming]
      dsimp only
      rw [hnew, hactive]
      cases hp : (stopPass s).timing.pending with
      | none => exact h.active
      | some tm => exact hpending tm hp
    have hvdl := one_le_vdl hrange
    refine ⟨⟨?_, hrange, fun tm htm => ?_, fun _ _ => by rw [htiming], fun hr => ?_, fun _ => ?_, fun _ => ?_⟩,
      sequencerLaw_of_case hpower (by rw [htiming]) (by rw [htiming]) ((hwanted hpower rfl).trans hdemand)
        ⟨hl, ht1, ht2, Nat.zero_le _, hl⟩ (.lead rfl rfl (.inl rfl))⟩
    · rw [TimingAgrees, htiming]
      rfl
    · rw [htiming] at htm
      cases htm
    · rw [htiming] at hr
      cases hr
    · have hline : (takeTimingStopped s).timing.line = 0 := by rw [htiming]
      omega
    · have hline : (takeTimingStopped s).timing.line = 0 := by rw [htiming]
      exact iff_of_true (by rw [htiming]) (by omega)

end Sys2Proof.Machine
end


section
/-! PROOFS. Every command but POWER_ON_RESET and FRAME_STORE_GRANT is a chain of elementary moves, each of one block. -/

namespace Sys2Proof.Machine

/-! ### Elementary moves -/

/-- A request is in work at the port's link, and has posted no access. -/
def InHand (s : State) (p : Port) : Prop := ∃ w, (s.links.get p).work = some w ∧ w.posted = false

/-- The link's request in work waits for the frame store. -/
def Link.waits (l : Link) : Prop := l.work.map Work.posted = some true

/-- The notices, the engine, scan-out, the freshness records, the draws and what the arbiter holds for the engine and the line fetch may
change; nothing else does. -/
structure Quiet (s t : State) : Prop where
  frame : t =
    { s with
      notices := t.notices, engine := t.engine, scan := t.scan, fresh := t.fresh, draws := t.draws
      arb := { t.arb with ports := s.arb.ports } }
  owed : ∀ p, owesReply t.arb.busy p = owesReply s.arb.busy p

/-- The edits that ports have staged and submitted could be staged by them (R19 to R21). -/
def HeldEditsOk (l : LayoutController) : Prop := (∀ p, EditsOk p (l.staging.get p)) ∧ ∀ e ∈ l.queue, EntryEditsOk e

/-- The port's accesses leave the arbiter. -/
def dropAccesses (p : Port) (s : State) : State :=
  { s with arb := { s.arb with ports := s.arb.ports.filter fun a => decide (a.port ≠ p) } }

/-- One change of one block, or of the blocks that must change together; the sessions that may close are those of the ports in `D`. -/
inductive Move (D : Port → Prop) (s : State) : State → Prop
  | quiet {t : State} : Quiet s t → Move D s t
  | panel {t : State} : PanelStep s t → Move D s t
  | stop : Move D s (takeTimingStopped s)
  | pass : (s.timing.run = .running → s.timing.period = .nonDisplay) → Move D s (applicationPass s).1
  | sessions (v : PerPort Session) : (∀ p, (v.get p).state = .opened → OpenAt s p) →
    (∀ p, OpenAt s p → (v.get p).state = .opened ∨ (D p ∧ ∀ a ∈ s.arb.ports, a.port ≠ p)) → Move D s { s with sessions := v }
  | link (p : Port) (l : Link) : (LinkOk (s.links.get p) → LinkOk l ∧ (l.waits ↔ (s.links.get p).waits)) → Move D s (s.setLink p l)
  | resetIdle (p : Port) (l : Link) : ¬OpenAt s p → Move D s (resetLink p (s.setLink p l))
  | resetOpen (p : Port) (l : Link) : Move D s (dropAccesses p (resetLink p (s.setLink p l)))
  | discard (attention : Bool) (p : Port) : Move D s (discardAccess attention p s)
  | access (a : PortAccess) : InHand s a.port → OpenAt s a.port → Move D s (postAccess a s)
  | complete {p : Port} {st : Status} {payload : List Byte} : s.arb.busy = some (.portAccess p st payload true) →
    Move D s (fillReply p st payload (freeStore s))
  | edits (l : LayoutController) : l.active = s.layout.active → (HeldEditsOk s.layout → HeldEditsOk l) →
    Move D s { s with layout := l }
  | resetLayout : Move D s (resetLayout s)
  | dropCursor (p : Port) : Move D s (dropCursor p s)
  | grant {p : Port} {size base : Nat} : size ∈ grantSizes → findBase s size = some base → Move D s (makeGrant p ⟨base, size⟩ s)
  | dropRecord (p : Port) : Move D s (s.setPalRecord p PalRecord.absent)
  | cursor (p : Port) (draft : Vector Colour 256) (c : Cursor) (mark : Bool) :
    (∀ g, grantOf s p = some g → CursorOk g (cursorOf s p g) → CursorOk g c) →
    Move D s
      { s with
        pal :=
          { s.pal with
            draft := draft
            records := s.pal.records.set p { s.pal.records.get p with cursor := some c, unpublished := mark } } }
  | resetPalette : Move D s (resetPalette s)
  | flags (flag : Bool) (hs : List Handle) : Move D s (setAbortFlags flag hs s)
  | free (i : Fin 32) : (s.alloc.table.get i).state ≠ .free → Move D s (freeSurface i s)
  | retire (i : Fin 32) : (s.alloc.table.get i).state ≠ .free →
    Move D s (s.setEntry i { s.alloc.table.get i with state := .retiring })
  | retireAll (p : Port) : Move D s { s with alloc := { s.alloc with table := retireSurfaces p s.alloc.table } }
  | marks (quota : PerPort Nat) (out owed : PerPort Bool) :
    Move D s { s with alloc := { s.alloc with quota := quota, withdrawalOut := out, reportOwed := owed } }
  | take {p : Port} {w h : Nat} {d : Depth} {i : Fin 32} {first : Nat} {fs : List Extent} : 8 ≤ w → 1 ≤ h →
    (s.alloc.table.get i).state = .free → takeRun (blocksOf (strideOf w d) h) s.alloc.free = some (first, fs) →
    Move D s (makeSurface p w h d i first fs s)
  | resetAllocator : Move D s (resetAllocator s)

/-- A chain of moves. -/
abbrev Moves (D : Port → Prop) : State → State → Prop := Relation.ReflTransGen (Move D)

section
variable {D : Port → Prop}

theorem Move.moves {s t : State} (h : Move D s t) : Moves D s t := Relation.ReflTransGen.single h

/-- `Relation.ReflTransGen.trans`, the later part first. -/
theorem moves_after {s t u : State} (h' : Moves D t u) (h : Moves D s t) : Moves D s u := h.trans h'

theorem quiet_moves {s t : State} (h : Quiet s t) : Moves D s t := (Move.quiet h).moves

theorem moves_refl (s : State) : Moves D s s := Relation.ReflTransGen.refl

theorem moves_foldl {α : Type} {f : State → α → State} (hf : ∀ t a, Moves D t (f t a)) :
    ∀ (as : List α) (s : State), Moves D s (as.foldl f s)
  | [], s => moves_refl s
  | a :: as, s => (hf s a).trans (moves_foldl hf as (f s a))

/-- A property that each move keeps holds after a chain of moves. -/
theorem moves_keep {P : State → Prop} (hmove : ∀ {s t : State}, Move D s t → P s → P t) {s t : State} (h : Moves D s t)
    (hs : P s) : P t := by
  induction h with
  | refl => exact hs
  | tail _ hlast ih => exact hmove hlast ih

theorem quiet_notices (s : State) (n : PerPort NoticeQueue) (d : Nat) : Quiet s { s with notices := n, draws := d } :=
  ⟨rfl, fun _ => rfl⟩

theorem deliver_moves (xs : List Posting) (s : State) : Moves D s (deliver xs s) := by
  rw [deliver_frame]
  exact quiet_moves (quiet_notices s _ s.draws)

theorem post_moves (x : Posting) (s : State) : Moves D s (post x s) := by
  rw [post_frame]
  exact quiet_moves (quiet_notices s _ s.draws)

theorem deliverAny_moves (xs ys zs : List Posting) (s : State) : Moves D s (deliverAny xs ys zs s) := by
  rw [deliverAny_frame]
  exact quiet_moves (quiet_notices s _ _)

/-! ### Replies (R149, R152) -/

theorem InHand.of_links {s t : State} {p : Port} (h : InHand s p) (ht : t.links = s.links) : InHand t p := by
  rwa [InHand, ht]

theorem inHand_of_untaken {s : State} {p : Port} {k : Kind} {w : Work} (h : untaken p k s = some w) : InHand s p := by
  obtain ⟨hw, -, hposted⟩ := untaken_eq_some.1 h
  exact ⟨w, hw, hposted⟩

theorem InHand.not_waits {s : State} {p : Port} (h : InHand s p) : ¬(s.links.get p).waits := by
  obtain ⟨w, hw, hposted⟩ := h
  simp [Link.waits, hw, hposted]

/-- A reply in the slot of a link that is not held and shows no reply of the slot leaves the link in order (R149, R152). -/
theorem LinkOk.replied {l : Link} (h : LinkOk l) (hheld : l.rstLow = false) (hshown : l.state ≠ .replyReady ∨ l.window = none)
    (r : Reply) : LinkOk { l with state := .replyReady, slot := some r, overrun := false, work := none } := by
  obtain ⟨hexec, hslot, hover, hrst, hsel, hshow, hprog⟩ := h
  refine ⟨by simp, by simp, by simp, fun h => ?_, hsel, fun w hw hfrom => ?_, hprog⟩
  · rw [hheld] at h
    cases h
  · obtain hstate | hnone := hshown
    · exact absurd (hslot.2 (by rw [hshow w hw hfrom]; rfl)) hstate
    · rw [hnone] at hw
      cases hw

/-- A link that executes is not held (R156). -/
theorem LinkOk.rstLow_of_work {l : Link} (h : LinkOk l) (hw : l.work.isSome = true) : l.rstLow = false ∧ l.state = .executing := by
  have hexec := h.executing.2 hw
  refine ⟨Bool.eq_false_iff.2 fun hrst => ?_, hexec⟩
  obtain ⟨hready, -⟩ := h.held hrst
  rw [hexec] at hready
  cases hready

theorem fillReply_moves {p : Port} {s : State} (hw : InHand s p) (st : Status) (pl : List Byte) :
    Moves D s (fillReply p st pl s) := by
  refine (Move.link p _ fun hok => ?_).moves
  have hsome : (s.links.get p).work.isSome = true := by
    obtain ⟨w, hw, -⟩ := hw
    rw [hw]
    rfl
  obtain ⟨hrst, hexec⟩ := hok.rstLow_of_work hsome
  refine ⟨hok.replied hrst (.inl (by rw [hexec]; decide)) _, iff_of_false (by simp [Link.waits]) hw.not_waits⟩

/-! ### The layout controller and the copy engine -/

/-- The queue may change when it holds no edit that it did not hold. -/
theorem setQueue_moves (s : State) {q : List QueueEntry} (h : (∀ e ∈ s.layout.queue, EntryEditsOk e) → ∀ e ∈ q, EntryEditsOk e) :
    Moves D s (s.setQueue q) :=
  (Move.edits { s.layout with queue := q } rfl fun ⟨hstaged, hqueued⟩ => ⟨hstaged, h hqueued⟩).moves

theorem applyIfStopped_moves (s : State) : Moves D s (applyIfStopped s) := by
  unfold applyIfStopped
  split
  case isTrue h =>
    have hpass : Move D s (applicationPass s).1 := .pass fun hrun => by
      rw [timingStopped, hrun] at h
      cases h
    exact hpass.moves.trans (deliver_moves _ _)
  case isFalse => exact moves_refl s

theorem jobFinished_moves (p : Port) (n : BitVec 16) (s : State) : Moves D s (jobFinished p n s) := by
  refine (setQueue_moves s fun hqueued e he => ?_).trans (applyIfStopped_moves _)
  obtain ⟨e0, he0, rfl⟩ := List.mem_map.1 he
  have h0 := hqueued e0 he0
  cases e0 with
  | transaction x => exact h0
  | withdrawal q => exact h0

theorem startNextJob_moves (s : State) : Moves D s (startNextJob s) := by
  unfold startNextJob
  split
  · exact moves_refl s
  · split
    · exact moves_refl s
    · exact quiet_moves ⟨rfl, fun _ => rfl⟩

theorem setJobs_moves (s : State) (js : List Job) : Moves D s (s.setJobs js) := quiet_moves ⟨rfl, fun _ => rfl⟩

theorem beginAbort_moves (j : Job) (s : State) : Moves D s (beginAbort j s) := by
  unfold beginAbort
  split
  · exact (setJobs_moves s _).trans (Move.flags (s := s.setJobs _) true j.handles).moves
  · exact moves_refl s
  · exact moves_refl s

/-- The marks of a session change, and not whether it is OPEN. -/
theorem setSession_moves {p : Port} {x : Session} (s : State) (h : x.state = (s.sessions.get p).state) :
    Moves D s (s.setSession p x) := by
  have hstate : ∀ q, ((s.sessions.set p x).get q).state = (s.sessions.get q).state := fun q => by
    rw [PerPort.get_set]
    split
    case isTrue hq =>
      subst hq
      exact h
    case isFalse => rfl
  exact (Move.sessions _ (fun q hq => (hstate q).symm.trans hq) fun q hq => .inl ((hstate q).trans hq)).moves

theorem surfacesReport_moves (p : Port) (s : State) : Moves D s (surfacesReport p s) := by
  unfold surfacesReport
  split
  · have hmarks := (Move.marks (D := D) (s := s) s.alloc.quota s.alloc.withdrawalOut (s.alloc.reportOwed.set p false)).moves
    exact hmarks.trans (setSession_moves _ rfl)
  · exact moves_refl s

theorem jobStopReport_moves (p : Port) (hs : List Handle) (s : State) : Moves D s (jobStopReport p hs s) := by
  refine ((Move.flags false hs).moves.trans (moves_foldl (fun t i => ?_) _ _)).trans (surfacesReport_moves p _)
  split
  case isTrue hfreed =>
    obtain ⟨-, hret, -⟩ := freedAtStop_iff.1 hfreed
    exact (Move.free i (by rw [hret]; decide)).moves
  case isFalse => exact moves_refl t

theorem cancelJob_moves (j : Job) (s : State) : Moves D s (cancelJob j s) :=
  ((setJobs_moves s _).trans (post_moves _ _)).trans (jobFinished_moves _ _ _)

theorem endJob_moves (j : Job) (n : Notice) (s : State) : Moves D s (endJob j n s) := by
  have htold : Moves D s (if j.notify then post (j.owner, n) (s.setJobs (removeJob j s.engine.jobs))
      else s.setJobs (removeJob j s.engine.jobs)) := by
    split
    · exact (setJobs_moves s _).trans (post_moves _ _)
    · exact setJobs_moves s _
  exact ((htold.trans (jobStopReport_moves _ _ _)).trans (jobFinished_moves _ _ _)).trans (startNextJob_moves _)

theorem teardownJobs_moves (p : Port) (s : State) : Moves D s (teardownJobs p s) := by
  unfold teardownJobs
  dsimp only
  generalize hfold : List.foldl _ s _ = s1
  have h1 : Moves D s s1 := by
    rw [← hfold]
    exact moves_foldl (fun t j => (setJobs_moves t _).trans (jobFinished_moves _ _ _)) _ s
  split
  · split
    · exact (h1.trans (setJobs_moves _ _)).trans (beginAbort_moves _ _)
    · exact h1
  · exact h1

/-! ### Timing and power -/

theorem panel_moves {s t : State} (h : PanelStep s t) : Moves D s t := (Move.panel h).moves

theorem settleSession_opened (x : Session) : (settleSession x).state = .opened ↔ x.state = .opened := by
  unfold settleSession
  split
  case isTrue h =>
    obtain ⟨hclosing, -⟩ := h
    rw [hclosing]
    exact iff_of_false (fun h => by cases h) fun h => by cases h
  case isFalse => rfl

theorem settleSessions_moves (s : State) : Moves D s (settleSessions s) := by
  have hopen : ∀ q, (settleSession (s.sessions.get q)).state = .opened ↔ OpenAt s q := fun q => settleSession_opened _
  refine (Move.sessions _ (fun q hq => (hopen q).1 ?_) fun q hq => .inl ?_).moves
  · rwa [PerPort.get_map] at hq
  · rw [PerPort.get_map]
    exact (hopen q).2 hq

theorem takeVblank_moves {s : State} (h : atVblank s = true) : Moves D s (takeVblank s) := by
  obtain ⟨⟨hrun, -⟩, -⟩ := atVblank_iff.1 h
  have hpass : Move D (generatorVblank s) (vblankPass s) := .pass fun _ => rfl
  have hpower := panel_moves (D := D) (powerVblank_panel (s := vblankPass s) ((vblankPass_run s).trans hrun) (vblankOutcomes s) (vblankFrames s))
  exact (((panel_moves (generatorVblank_panel h)).trans hpass.moves).trans hpower).trans (settleSessions_moves _)

/-! ### Sessions and links -/

theorem openAt_congr {s t : State} (h : t.sessions = s.sessions) (p : Port) : OpenAt t p ↔ OpenAt s p := by
  rw [OpenAt, OpenAt, h]

/-- No move opens a session. -/
theorem Move.openAt {s t : State} (h : Move D s t) {p : Port} (ht : OpenAt t p) : OpenAt s p := by
  cases h
  case quiet h => exact (openAt_congr (by rw [h.frame]) p).1 ht
  case panel h => exact (openAt_congr (by rw [h.frame]) p).1 ht
  case stop =>
    have hsettled : OpenAt (settleSessions (stopPass s)) p := by
      rw [OpenAt, takeTimingStopped_frame, passAlone_frame] at ht
      exact ht
    have hpass : OpenAt (stopPass s) p := (settleSession_opened _).1 (by rwa [OpenAt, settleSessions, PerPort.get_map] at hsettled)
    rwa [OpenAt, stopPass_state] at hpass
  case pass =>
    rw [OpenAt, applicationPass, applyEntries_state] at ht
    exact ht
  case sessions v hv _ => exact hv p ht
  case discard a q => exact (openAt_congr (by rw [discardAccess_frame]) p).1 ht
  case resetIdle q l _ => exact (openAt_congr (by rw [resetLink_frame]; rfl) p).1 ht
  case resetOpen q l =>
    have hreset : (resetLink q (s.setLink q l)).sessions = s.sessions := by rw [resetLink_frame]; rfl
    exact (openAt_congr hreset p).1 ht
  case flags flag hs => exact (openAt_congr (by rw [setAbortFlags_frame]) p).1 ht
  all_goals exact ht

theorem moves_not_open {s t : State} (h : Moves D s t) {p : Port} (hs : ¬OpenAt s p) : ¬OpenAt t p :=
  moves_keep (P := fun u => ¬OpenAt u p) (fun hm hu => mt hm.openAt hu) h hs

/-- A session closes when its port has no access at the arbiter. -/
theorem closing_moves {p : Port} (hp : D p) {x : Session} (hx : x.state ≠ .opened) {s : State}
    (hports : ∀ a ∈ s.arb.ports, a.port ≠ p) : Moves D s (s.setSession p x) := by
  have hne : ∀ q, q ≠ p → (s.sessions.set p x).get q = s.sessions.get q := fun q hq => PerPort.get_set_ne _ _ hq
  refine (Move.sessions _ (fun q hq => ?_) fun q hq => ?_).moves
  · by_cases h : q = p
    · subst h
      rw [PerPort.get_set_same] at hq
      exact absurd hq hx
    · rwa [hne q h] at hq
  · by_cases h : q = p
    · subst h
      exact .inr ⟨hp, hports⟩
    · rw [hne q h]
      exact .inl hq

theorem discardAccess_sessions (a : Bool) (p : Port) (s : State) : (discardAccess a p s).sessions = s.sessions := by
  rw [discardAccess_frame]

theorem discardAccess_ports (a : Bool) (p : Port) (s : State) :
    (discardAccess a p s).arb.ports = s.arb.ports.filter fun x => decide (x.port ≠ p) := by
  rw [discardAccess_frame]

/-- Step 1 of the teardown discards the access of the port, whose session is CLOSING by then, and retires its surfaces (R61, R69). -/
theorem teardownSurfaces_setSession (p : Port) (x : Session) (s : State) :
    teardownSurfaces p (s.setSession p x) =
      { (discardAccess (attentionPending s p) p s).setSession p x with
        alloc :=
          { s.alloc with
            table := retireSurfaces p s.alloc.table
            withdrawalOut := s.alloc.withdrawalOut.set p true
            reportOwed := s.alloc.reportOwed.set p true } } := by
  unfold teardownSurfaces discardAccess
  cases hwaits : s.arb.ports.any fun a => decide (a.port = p) with
  | false => simp only [State.setSession_arb, hwaits, Bool.false_eq_true, if_false]; rfl
  | true =>
    cases hwork : (s.links.get p).work with
    | none => simp only [State.setSession_arb, State.setSession_links, hwaits, hwork, if_true]; rfl
    | some w => simp only [State.setSession_arb, State.setSession_links, hwaits, hwork, if_true]; rfl

theorem teardownLayout_moves (p : Port) (s : State) : Moves D s (teardownLayout p s) := by
  refine (Move.edits (s := s) (teardownLayout p s).layout rfl fun ⟨hstaged, hqueued⟩ => ⟨fun q => ?_, fun e he => ?_⟩).moves
  · simp only [teardownLayout, State.setRecord_layout, State.setQueue_layout, State.setStaging_layout, PerPort.get_set]
    split
    · exact fun e he => absurd he List.not_mem_nil
    · exact hstaged q
  · exact hqueued e (List.mem_filter.1 he).1

theorem appendWithdrawal_moves (p : Port) (s : State) : Moves D s (appendWithdrawal p s) := by
  refine (setQueue_moves s fun hqueued e he => ?_).trans (applyIfStopped_moves _)
  obtain he | he := List.mem_append.1 he
  · exact hqueued e he
  · rw [List.mem_singleton.1 he]
    trivial

/-- The teardown after its access is discarded (R173). -/
theorem teardown_moves {p : Port} (hp : D p) (s : State) :
    Moves D (discardAccess (attentionPending s p) p s) (teardown p s) := by
  obtain ⟨x, hx, hstate⟩ : ∃ x : Session,
      ({ s.sessions.get p with state := .closing, withdrawalPending := true, surfacesPending := true } : Session) = x ∧
        x.state ≠ .opened := ⟨_, rfl, fun h => by cases h⟩
  have hports := discardAccess_ports (attentionPending s p) p s
  have halloc : (discardAccess (attentionPending s p) p s).alloc = s.alloc := by rw [discardAccess_frame]
  have hfirst := teardownSurfaces_setSession p x s
  obtain ⟨d, hd⟩ : ∃ d, discardAccess (attentionPending s p) p s = d := ⟨_, rfl⟩
  rw [hd] at hports halloc hfirst ⊢
  have hnone : ∀ a ∈ d.arb.ports, a.port ≠ p := fun a ha => by
    rw [hports] at ha
    exact of_decide_eq_true (List.mem_filter.1 ha).2
  have hsurfaces : Moves D d (teardownSurfaces p (s.setSession p x)) := by
    rw [hfirst, ← halloc]
    exact ((closing_moves hp hstate hnone).trans (Move.retireAll p).moves).trans
      (Move.marks d.alloc.quota (d.alloc.withdrawalOut.set p true) (d.alloc.reportOwed.set p true)).moves
  have hclosed : ¬OpenAt (teardownSurfaces p (s.setSession p x)) p := by
    rw [hfirst, OpenAt, State.setSession_sessions, PerPort.get_set_same]
    exact hstate
  have hlayout := teardownLayout_moves (D := D) p (teardownSurfaces p (s.setSession p x))
  have hcursor : Moves D (teardownSurfaces p (s.setSession p x)) _ :=
    ((hlayout.trans (teardownJobs_moves p _)).trans (appendWithdrawal_moves p _)).trans (Move.dropCursor p).moves
  have hvote := panel_moves (D := D) (changeVote_panel (p := p) (v := none)
    (iff_of_false (by decide) (moves_not_open hcursor hclosed)))
  have hnotices : ∀ t : State, Moves D t (t.setNotices p NoticeQueue.cleared) := fun t => quiet_moves (quiet_notices t _ t.draws)
  unfold teardown
  dsimp only
  rw [hx]
  exact (((hsurfaces.trans hcursor).trans hvote).trans (hnotices _)).trans (settleSessions_moves _)

theorem teardown_vote (p : Port) (s : State) : (teardown p s).power.votes.get p = none := by
  unfold teardown
  dsimp only
  rw [settleSessions_frame, State.setNotices_power, changeVote_votes, PerPort.get_set_same]

/-! ### What an event does -/

/-- The state is reached by moves, and each session that may have closed has lost its vote. -/
def Ran (s t : State) : Prop := ∃ D : Port → Prop, Moves D s t ∧ ∀ p, D p → t.power.votes.get p = none

theorem ran_of_moves {s t : State} (h : Moves (fun _ => False) s t) : Ran s t := ⟨_, h, fun _ h => h.elim⟩

theorem Ran.after {s t u : State} (h : Ran t u) (hmoves : ∀ {D}, Moves D s t) : Ran s u := by
  obtain ⟨D, h, hvotes⟩ := h
  exact ⟨D, hmoves.trans h, hvotes⟩

theorem Ran.reply {s t : State} (h : Ran s t) {p : Port} (hw : InHand t p) (st : Status) (pl : List Byte) :
    Ran s (fillReply p st pl t) := by
  obtain ⟨D, h, hvotes⟩ := h
  exact ⟨D, h.trans (fillReply_moves hw st pl), hvotes⟩

theorem ran_teardown (p : Port) (s : State) : Ran s (teardown p s) :=
  ⟨fun q => q = p, (Move.discard _ p).moves.trans (teardown_moves (p := p) (D := fun q => q = p) rfl s), fun q hq => by rw [hq, teardown_vote]⟩

theorem resetLink_sessions (p : Port) (l : Link) (s : State) : (resetLink p (s.setLink p l)).sessions = s.sessions := by
  rw [resetLink_frame]
  rfl

/-- A port reset, from a state in which the link's other fields are as the frame or the pin has left them (R156, R171). -/
theorem ran_portReset (p : Port) (l : Link) (s : State) : Ran s (portResetAt p (s.setLink p l)) := by
  unfold portResetAt
  dsimp only
  split
  case isTrue hopen =>
    obtain ⟨u, hu⟩ : ∃ u, resetLink p (s.setLink p l) = u := ⟨_, rfl⟩
    have hwork : (u.links.get p).work = none := by rw [← hu, resetLink_links, PerPort.get_set_same]
    have hdrop : ∀ a, discardAccess a p u = dropAccesses p u := fun a => by
      unfold discardAccess dropAccesses
      simp only [hwork, ite_self]
    have hreset : Move (fun q => q = p) s (dropAccesses p u) := by
      rw [← hu]
      exact .resetOpen p l
    rw [hu]
    refine ⟨fun q => q = p, hreset.moves.trans ?_, fun q hq => by rw [hq, teardown_vote]⟩
    rw [← hdrop (attentionPending u p)]
    exact teardown_moves (p := p) (D := fun q => q = p) rfl u
  case isFalse hopen =>
    rw [resetLink_sessions] at hopen
    exact ran_of_moves (Move.resetIdle p l hopen).moves

/-! ### Frames at the link (R150, R151) -/

theorem setLink_moves {p : Port} {s : State} {l : Link}
    (h : LinkOk (s.links.get p) → LinkOk l ∧ (l.waits ↔ (s.links.get p).waits)) : Moves D s (s.setLink p l) := (Move.link p l h).moves

/-- A change that none of the link's laws reads. -/
theorem LinkOk.setSdo {l : Link} (h : LinkOk l) (bs : List Byte) : LinkOk { l with sdo := bs } := by
  obtain ⟨h1, h2, h3, h4, h5, h6, h7⟩ := h
  exact ⟨h1, h2, h3, h4, h5, h6, h7⟩

theorem shiftZeros_moves (p : Port) (n : Nat) (s : State) : Moves D s (shiftZeros p n s) :=
  setLink_moves fun h => ⟨h.setSdo _, Iff.rfl⟩

/-- A link without a window that executes no request. -/
theorem LinkOk.at_rest {l : Link} (h : LinkOk l) (hcs : l.csLow = false) (hstate : l.state ≠ .executing) :
    l.window = none ∧ l.work = none := by
  refine ⟨by_contra fun hw => ?_, ?_⟩
  · have := h.selected hw
    rw [hcs] at this
    cases this
  · cases hwork : l.work with
    | none => rfl
    | some w => exact absurd (h.executing.2 (by rw [hwork]; rfl)) hstate

theorem not_waits_of_none {l : Link} (h : l.work = none) : ¬l.waits := by simp [Link.waits, h]

section
variable {p : Port} {s : State} (hrst : (s.links.get p).rstLow = false) (hcs : (s.links.get p).csLow = false)
include hrst hcs

/-- A malformed frame is answered at once (R150). -/
theorem putReply_moves (hstate : (s.links.get p).state ≠ .executing) (a : Bool) (seq : Byte) (st : Status) (pl : List Byte) :
    Moves D s (putReply a p seq st pl s) := by
  refine setLink_moves fun h => ?_
  obtain ⟨hwindow, hwork⟩ := h.at_rest hcs hstate
  exact ⟨h.replied hrst (.inr hwindow) _, iff_of_false (not_waits_of_none rfl) (not_waits_of_none hwork)⟩

theorem acceptWork_moves (hstate : (s.links.get p).state ≠ .executing) (k : Kind) (ep seq : Byte) (pl : List Byte) :
    Moves D s (acceptWork p k ep seq pl s) := by
  refine setLink_moves fun h => ?_
  obtain ⟨hwindow, hwork⟩ := h.at_rest hcs hstate
  obtain ⟨-, -, -, -, hselected, -, hprogress⟩ := h
  refine ⟨⟨by simp, by simp, fun _ => rfl, fun hr => ?_, hselected, fun w hw => ?_, hprogress⟩,
    iff_of_false (by simp [Link.waits]) (not_waits_of_none hwork)⟩
  · rw [hrst] at hr
    cases hr
  · rw [hwindow] at hw
    cases hw

theorem takeFrame_ran (hstate : (s.links.get p).state ≠ .executing) (bs : List Byte) : Ran s (takeFrame p bs s) := by
  unfold takeFrame
  split
  · exact ran_of_moves (putReply_moves hrst hcs hstate _ _ _ _)
  · exact ran_of_moves (putReply_moves hrst hcs hstate _ _ _ _)
  · have hreset := ran_portReset p (s.links.get p) s
    rwa [setLink_get_self] at hreset
  · exact ran_of_moves (acceptWork_moves hrst hcs hstate _ _ _ _)

end

theorem dropFrame_ran {p : Port} {s : State} (hstate : (s.links.get p).state = .executing) (bs : List Byte) : Ran s (dropFrame p bs s) := by
  have hover : Moves (fun _ => False) s (s.setLink p { s.links.get p with overrun := true }) := setLink_moves fun h => by
    obtain ⟨h1, h2, -, h4, h5, h6, h7⟩ := h
    exact ⟨⟨h1, h2, fun _ => hstate, h4, h5, h6, h7⟩, Iff.rfl⟩
  unfold dropFrame
  split
  · have hreset := ran_portReset p (s.links.get p) s
    rwa [setLink_get_self] at hreset
  all_goals exact ran_of_moves hover

/-! ### DEVICE_RESET (R177) -/

/-- DEVICE_RESET before its reply. -/
def resetAll (s : State) : State :=
  finishPower [] (powerDeviceReset (resetSessions (resetPalette (resetEngine (resetAllocator (resetLayout (discardAll s)))))))

theorem deviceReset_eq (p : Port) (pl : List Byte) (s : State) : deviceReset p pl s = fillReply p .ok [] (resetAll s) := rfl

/-- Every waiting access is discarded. -/
theorem discardAll_ports (s : State) : (discardAll s).arb.ports = [] := by
  rw [List.eq_nil_iff_forall_not_mem]
  intro a ha
  simp only [discardAll, Port.all, List.foldl_cons, List.foldl_nil, discardAccess_ports, List.mem_filter, decide_eq_true_eq] at ha
  obtain ⟨⟨⟨⟨-, h0⟩, h1⟩, h2⟩, h3⟩ := ha
  cases hp : a.port <;> contradiction

theorem resetAll_moves (s : State) : Moves (fun _ => True) s (resetAll s) := by
  have hdiscard : Moves (fun _ => True) s (discardAll s) := moves_foldl (fun t q => (Move.discard false q).moves) _ s
  have hports := discardAll_ports s
  obtain ⟨u, hu⟩ : ∃ u, discardAll s = u := ⟨_, rfl⟩
  unfold resetAll
  rw [hu] at hdiscard hports ⊢
  have hlayout : Moves (fun _ => True) u (resetAllocator (resetLayout u)) := Move.resetLayout.moves.trans Move.resetAllocator.moves
  have hengine : Moves (fun _ => True) (resetAllocator (resetLayout u)) (resetEngine (resetAllocator (resetLayout u))) := by
    refine quiet_moves ⟨rfl, fun p => ?_⟩
    show owesReply (orphanRow u.arb.busy) p = owesReply u.arb.busy p
    cases u.arb.busy with
    | none => rfl
    | some x => cases x <;> rfl
  have hpalette : Moves (fun _ => True) (resetEngine (resetAllocator (resetLayout u))) _ := Move.resetPalette.moves
  have hclosed : ∀ v p, ¬OpenAt (resetSessions v) p := fun v p h => by
    rw [OpenAt, resetSessions, PerPort.get_map] at h
    cases h
  have hsessions : ∀ v : State, v.arb.ports = [] → Moves (fun _ => True) v (resetSessions v) := fun v hv => by
    have hsession : Moves (fun _ => True) v { v with sessions := (resetSessions v).sessions } :=
      (Move.sessions _ (fun p hp => absurd hp (hclosed v p)) fun p _ => .inr ⟨trivial, fun a ha => by
        rw [hv] at ha
        cases ha⟩).moves
    exact hsession.trans (quiet_moves (quiet_notices _ _ v.draws))
  exact ((((hdiscard.trans hlayout).trans hengine).trans hpalette).trans (hsessions _ hports)).trans
    (panel_moves (powerDeviceReset_panel (hclosed _)))

theorem resetAll_votes (s : State) (p : Port) : (resetAll s).power.votes.get p = none := by
  unfold resetAll
  obtain ⟨u, hu⟩ : ∃ u, resetSessions (resetPalette (resetEngine (resetAllocator (resetLayout (discardAll s))))) = u := ⟨_, rfl⟩
  rw [hu, finishPower_frame]
  obtain ⟨-, htails, hkept⟩ := powerDeviceReset_step u
  by_cases h : TailsAtReset u
  · rw [htails h]
    exact PerPort.get_every _ p
  · rw [hkept h]
    exact PerPort.get_every _ p

end

end Sys2Proof.Machine
end


section
/-! PROOFS. Every command but POWER_ON_RESET, FRAME_STORE_GRANT, OPEN and DEVICE_RESET is a chain of moves. -/

namespace Sys2Proof.Machine

section
variable {D : Port → Prop}

/-! ### What keeps the links -/

theorem applyIfStopped_links (s : State) : (applyIfStopped s).links = s.links := by rw [applyIfStopped_frame]

theorem jobFinished_links (p : Port) (n : BitVec 16) (s : State) : (jobFinished p n s).links = s.links := by
  rw [jobFinished_frame]

theorem cancelJob_links (j : Job) (s : State) : (cancelJob j s).links = s.links := by
  rw [cancelJob, jobFinished_links, post_links, State.setJobs_links]

theorem beginAbort_links (j : Job) (s : State) : (beginAbort j s).links = s.links := by rw [beginAbort_frame]

theorem changeVote_links (p : Port) (v : Option Vote) (s : State) : (changeVote p v s).links = s.links := by
  rw [(changeVote_voteChanged p v s).frame]

theorem changeInhibit_links (v : Bool) (s : State) : (changeInhibit v s).links = s.links := by
  rw [(changeInhibit_panel v s).frame]

theorem foldl_links {α : Type} {f : State → α → State} (h : ∀ t a, (f t a).links = t.links) :
    ∀ (as : List α) (s : State), (as.foldl f s).links = s.links
  | [], _ => rfl
  | a :: as, s => (foldl_links h as (f s a)).trans (h s a)

theorem teardownJobs_links (p : Port) (s : State) : (teardownJobs p s).links = s.links := by
  unfold teardownJobs
  dsimp only
  generalize hfold : List.foldl _ s _ = s1
  have h1 : s1.links = s.links := by
    rw [← hfold]
    exact foldl_links (fun t j => by rw [jobFinished_links, State.setJobs_links]) _ s
  split
  · split
    · rw [beginAbort_links, State.setJobs_links, h1]
    · exact h1
  · exact h1

/-- The teardown of a session leaves every other port's link as it is. -/
theorem teardown_links_ne {p q : Port} (h : q ≠ p) (s : State) : (teardown p s).links.get q = s.links.get q := by
  unfold teardown
  dsimp only
  rw [settleSessions_frame, State.setNotices_links, changeVote_links, dropCursor, State.setPalRecord_links, appendWithdrawal,
    applyIfStopped_links, State.setQueue_links, teardownJobs_links]
  exact discardAccess_links_ne _ _ h

/-! ### The blocks' answers to requests -/

/-- A request answered after moves that leave the links as they are. -/
theorem reply_moves {p : Port} {s t : State} {st : Status} {pl : List Byte} (h : Moves D s t) (hw : InHand s p)
    (ht : t.links = s.links) : Moves D s (fillReply p st pl t) :=
  h.trans (fillReply_moves (hw.of_links ht) st pl)

theorem notices_moves (s : State) (n : PerPort NoticeQueue) : Moves D s { s with notices := n } :=
  quiet_moves (quiet_notices s n s.draws)

theorem setRecord_moves (p : Port) (r : SubmitRecord) (s : State) : Moves D s (s.setRecord p r) :=
  (Move.edits (s := s) (s.setRecord p r).layout rfl id).moves

theorem noticeRead_moves {p : Port} {s : State} (hw : InHand s p) (pl : List Byte) : Moves D s (noticeRead p pl s) := by
  unfold noticeRead
  dsimp only
  split
  · exact fillReply_moves hw _ _
  · exact reply_moves (notices_moves s _) hw rfl

theorem noticeSubscribe_moves {p : Port} {s : State} (hw : InHand s p) (pl : List Byte) : Moves D s (noticeSubscribe p pl s) := by
  unfold noticeSubscribe
  dsimp only
  split
  · exact fillReply_moves hw _ _
  · exact reply_moves (notices_moves s _) hw rfl

theorem surfAlloc_moves {p : Port} {s : State} (hw : InHand s p) (pl : List Byte) : Moves D s (surfAlloc p pl s) := by
  unfold surfAlloc
  split
  · exact fillReply_moves hw _ _
  case h_2 w h d hasked =>
    have hsize : 8 ≤ w ∧ 1 ≤ h := by
      unfold askedGeometry at hasked
      dsimp only at hasked
      split at hasked
      · cases hasked
      · split at hasked
        case isTrue hgood =>
          obtain ⟨hw, -, hh, -⟩ := hgood
          cases hasked
          exact ⟨hw, hh⟩
        · cases hasked
    dsimp only
    split
    · exact fillReply_moves hw _ _
    · split
      · exact fillReply_moves hw _ _
      case h_2 i hlowest =>
        have hfree : (s.alloc.table.get i).state = .free :=
          of_decide_eq_true (List.find?_some (p := fun i => decide ((s.alloc.table.get i).state = .free)) hlowest)
        split
        · exact fillReply_moves hw _ _
        · split
          · exact fillReply_moves hw _ _
          case h_2 hrun => exact reply_moves ((Move.take hsize.1 hsize.2 hfree hrun).moves) hw rfl

/-- A pass over the queue leaves a LIVE surface as it is: a withdrawal frees RETIRING ones alone (R62). -/
theorem applyEntries_live (es : List QueueEntry) : ∀ {s : State} {i : Fin 32}, (s.alloc.table.get i).state = .live →
    (applyEntries es s).1.alloc.table.get i = s.alloc.table.get i := by
  induction es with
  | nil => exact fun _ => rfl
  | cons e es ih =>
    intro s i hlive
    rw [applyEntries]
    split
    · exact ih hlive
    · have hone : (applyEntry e s).1.alloc.table.get i = s.alloc.table.get i := by
        cases e with
        | transaction x => rw [applyEntry, applyTransaction_frame]
        | withdrawal p =>
          rw [applyEntry, applyWithdrawal_table_get]
          refine if_neg fun ⟨_, hret, _⟩ => ?_
          rw [hlive] at hret
          cases hret
      exact (ih (s := (applyEntry e s).1) (by rw [hone]; exact hlive)).trans hone

theorem cancelJob_live {j : Job} {s : State} {i : Fin 32} (hlive : (s.alloc.table.get i).state = .live) :
    (cancelJob j s).alloc.table.get i = s.alloc.table.get i := by
  unfold cancelJob jobFinished applyIfStopped
  split
  · dsimp only
    rw [deliver_alloc, applicationPass, applyEntries_live] <;>
      simp only [State.setQueue_alloc, post_alloc, State.setJobs_alloc, hlive]
  · simp only [State.setQueue_alloc, post_alloc, State.setJobs_alloc]

theorem cancelJobs_live {i : Fin 32} : ∀ {js : List Job} {s : State}, (s.alloc.table.get i).state = .live →
    (js.foldl (fun t j => cancelJob j t) s).alloc.table.get i = s.alloc.table.get i
  | [], _, _ => rfl
  | j :: js, s, hlive => by
    have hone := cancelJob_live (j := j) hlive
    exact (cancelJobs_live (js := js) (s := cancelJob j s) (by rw [hone]; exact hlive)).trans hone

theorem setAbortFlags_state (flag : Bool) (hs : List Handle) (s : State) (i : Fin 32) :
    ((setAbortFlags flag hs s).alloc.table.get i).state = (s.alloc.table.get i).state := by
  obtain ⟨hset, hkept⟩ := setAbortFlags_get flag i hs s
  by_cases hnamed : NamedByHandles s hs i
  · rw [hset hnamed]
  · rw [hkept hnamed]

theorem beginAbort_state (j : Job) (s : State) (i : Fin 32) :
    ((beginAbort j s).alloc.table.get i).state = (s.alloc.table.get i).state := by
  unfold beginAbort
  split
  · exact setAbortFlags_state _ _ _ _
  · rfl
  · rfl

theorem releaseSurface_moves {p : Port} {s : State} (hw : InHand s p) {h : Handle}
    (hlive : (s.alloc.table.get h.index).state = .live) :
    Moves D s (releaseSurface p h s) := by
  unfold releaseSurface
  dsimp only
  obtain ⟨s1, hs1⟩ : ∃ s1, (queuedNaming s h).foldl (fun t j => cancelJob j t) s = s1 := ⟨_, rfl⟩
  have h1 : Moves D s s1 := by
    rw [← hs1]
    exact moves_foldl (fun t j => cancelJob_moves j t) _ s
  have hlinks : s1.links = s.links := by
    rw [← hs1]
    exact foldl_links (fun t j => cancelJob_links j t) _ s
  have hstays : (s1.alloc.table.get h.index).state = .live := by
    rw [← hs1, cancelJobs_live hlive]
    exact hlive
  rw [hs1]
  split
  · exact reply_moves (h1.trans (Move.free h.index (by rw [hstays]; decide)).moves) hw hlinks
  case h_2 j _ =>
    have habort : ((beginAbort j s1).alloc.table.get h.index).state = .live := by
      rw [beginAbort_state]
      exact hstays
    exact reply_moves ((h1.trans (beginAbort_moves j s1)).trans (Move.retire h.index (by rw [habort]; decide)).moves) hw
      ((beginAbort_links j s1).trans hlinks)

theorem surfFree_moves {p : Port} {s : State} (hw : InHand s p) (pl : List Byte) : Moves D s (surfFree p pl s) := by
  unfold surfFree
  split
  · exact fillReply_moves hw _ _
  case h_2 h e hown =>
    obtain ⟨-, rfl, hlive, -⟩ := ownLiveSurface_eq_some.1 hown
    split
    · exact fillReply_moves hw _ _
    · exact releaseSurface_moves hw hlive

theorem surfInfo_moves {p : Port} {s : State} (hw : InHand s p) (pl : List Byte) : Moves D s (surfInfo p pl s) := by
  unfold surfInfo
  split <;> exact fillReply_moves hw _ _

theorem pixWrite_moves {p : Port} {s : State} (hw : InHand s p) (hopen : OpenAt s p) (pl : List Byte) :
    Moves D s (pixWrite p pl s) := by
  unfold pixWrite
  dsimp only
  split
  · exact fillReply_moves hw _ _
  · split
    · exact fillReply_moves hw _ _
    · exact (Move.access _ hw hopen).moves

theorem pixRead_moves {p : Port} {s : State} (hw : InHand s p) (hopen : OpenAt s p) (pl : List Byte) :
    Moves D s (pixRead p pl s) := by
  unfold pixRead
  dsimp only
  split
  · exact fillReply_moves hw _ _
  · split
    · exact fillReply_moves hw _ _
    · exact (Move.access _ hw hopen).moves

theorem supQuota_moves {p : Port} {s : State} (hw : InHand s p) (pl : List Byte) : Moves D s (supQuota p pl s) := by
  unfold supQuota
  split
  · exact fillReply_moves hw _ _
  case h_2 q _ =>
    split
    · exact fillReply_moves hw _ _
    · exact reply_moves ((Move.marks (s.alloc.quota.set q (num16 pl 1)) s.alloc.withdrawalOut s.alloc.reportOwed).moves) hw rfl

theorem palGrant_moves {p : Port} {s : State} (hw : InHand s p) (pl : List Byte) : Moves D s (palGrant p pl s) := by
  unfold palGrant
  dsimp only
  split
  · exact fillReply_moves hw _ _
  case isFalse hsize =>
    split
    · exact fillReply_moves hw _ _
    · split
      · exact fillReply_moves hw _ _
      case h_2 base hbase => exact reply_moves (Move.grant (not_not.1 hsize) hbase).moves hw rfl

theorem palRelease_moves {p : Port} {s : State} (hw : InHand s p) (pl : List Byte) : Moves D s (palRelease p pl s) := by
  unfold palRelease
  split
  · exact fillReply_moves hw _ _
  · split
    · exact fillReply_moves hw _ _
    · split
      · exact fillReply_moves hw _ _
      · exact reply_moves ((Move.dropRecord p).moves) hw rfl

theorem withGrant_moves {p : Port} {s : State} (hw : InHand s p) {act : Grant → State} (h : ∀ g, grantOf s p = some g → Moves D s (act g)) :
    Moves D s (withGrant p s act) := by
  unfold withGrant
  split
  · exact fillReply_moves hw _ _
  · split
    · exact fillReply_moves hw _ _
    case h_2 g hg => exact h g hg

theorem palSeek_moves {p : Port} {s : State} (hw : InHand s p) (pl : List Byte) : Moves D s (palSeek p pl s) :=
  withGrant_moves hw fun g hg => by
    split
    case isTrue hin =>
      have hcursor := Move.cursor (D := D) (s := s) p s.pal.draft { offset := num8 pl 0, component := .red }
        (s.pal.records.get p).unpublished fun g' hg' _ => by
          rw [hg] at hg'
          cases hg'
          exact ⟨Nat.le_of_lt hin, fun _ => rfl⟩
      exact reply_moves (hcursor.moves) hw rfl
    case isFalse => exact fillReply_moves hw _ _

theorem palWrite_moves {p : Port} {s : State} (hw : InHand s p) (pl : List Byte) : Moves D s (palWrite p pl s) :=
  withGrant_moves hw fun g hg => by
    split
    · exact fillReply_moves hw _ _
    · have hcursor := Move.cursor (D := D) (s := s) p (storeComponents g pl s.pal.draft (cursorOf s p g) 0).1
        (storeComponents g pl s.pal.draft (cursorOf s p g) 0).2.1
        ((s.pal.records.get p).unpublished ||
          decide (0 < (storeComponents g pl s.pal.draft (cursorOf s p g) 0).2.2)) fun g' hg' hok => by
          rw [hg] at hg'
          cases hg'
          exact hok.storeComponents _ _ _
      exact reply_moves (hcursor.moves) hw rfl

theorem palRead_moves {p : Port} {s : State} (hw : InHand s p) (pl : List Byte) : Moves D s (palRead p pl s) :=
  withGrant_moves hw fun g hg => by
    dsimp only
    split
    · exact fillReply_moves hw _ _
    · have hcursor := Move.cursor (D := D) (s := s) p s.pal.draft (readComponents g s.pal.draft (num8 pl 0) (cursorOf s p g)).2
        (s.pal.records.get p).unpublished fun g' hg' hok => by
          rw [hg] at hg'
          cases hg'
          exact hok.readComponents _ _
      exact reply_moves (hcursor.moves) hw rfl

/-- A port's staging area may change when it holds edits that the port could stage. -/
theorem setStaging_moves (p : Port) {es : List Edit} (s : State)
    (h : HeldEditsOk s.layout → EditsOk p es) : Moves D s (s.setStaging p es) := by
  refine (Move.edits (s := s) (s.setStaging p es).layout rfl fun hheld => ⟨fun q => ?_, hheld.2⟩).moves
  simp only [State.setStaging_layout, PerPort.get_set]
  split
  case isTrue hq =>
    subst hq
    exact h hheld
  case isFalse => exact hheld.1 q

theorem stageEdit_moves {p : Port} {s : State} (hw : InHand s p) (pl : List Byte) : Moves D s (stageEdit p pl s) := by
  unfold stageEdit
  dsimp only
  split
  · exact fillReply_moves hw _ _
  · split
    · exact fillReply_moves hw _ _
    · split
      · exact fillReply_moves hw _ _
      · split
        · exact fillReply_moves hw _ _
        case h_2 e hparse =>
          split
          · exact fillReply_moves hw _ _
          · refine reply_moves (setStaging_moves p s fun hheld d hd => ?_) hw rfl
            obtain hd | hd := List.mem_append.1 hd
            · exact hheld.1 p d hd
            · rw [List.mem_singleton.1 hd]
              exact stageable_of_parseFields (parseFields_of_parseEdit hparse)

theorem enqueueEntry_moves (p : Port) (tag : Byte) (wait : Bool) (s : State) :
    Moves D s (enqueueEntry p (builtEntry p tag wait s) s) := by
  have hqueue : Moves D s (s.setQueue (s.layout.queue ++ [.transaction (builtEntry p tag wait s)])) := by
    refine (Move.edits (s := s)
      { s.layout with queue := s.layout.queue ++ [.transaction (builtEntry p tag wait s)] } rfl fun ⟨hstaged, hqueued⟩ => ⟨hstaged, fun e he => ?_⟩).moves
    obtain he | he := List.mem_append.1 he
    · exact hqueued e he
    · rw [List.mem_singleton.1 he]
      exact hstaged p
  exact (hqueue.trans (setStaging_moves p (es := []) _ fun _ e he => absurd he List.not_mem_nil)).trans
    (setRecord_moves p .queued _)

theorem submit_moves {p : Port} {s : State} (hw : InHand s p) (pl : List Byte) : Moves D s (submit p pl s) := by
  unfold submit
  dsimp only
  split
  · exact fillReply_moves hw _ _
  · split
    · exact fillReply_moves hw _ _
    · split
      · exact fillReply_moves hw _ _
      · split
        · exact fillReply_moves hw _ _
        · exact reply_moves ((enqueueEntry_moves p _ _ s).trans (applyIfStopped_moves _)) hw (applyIfStopped_links _)

theorem findTransaction_some {p : Port} {x : Transaction} : ∀ {q : List QueueEntry}, findTransaction p q = some x →
    .transaction x ∈ q ∧ x.port = p
  | .withdrawal _ :: q, h => by
    obtain ⟨hmem, hport⟩ := findTransaction_some (q := q) h
    exact ⟨List.mem_cons_of_mem _ hmem, hport⟩
  | .transaction y :: q, h => by
    rw [findTransaction] at h
    split at h
    case isTrue hport =>
      cases h
      exact ⟨List.mem_cons_self, hport⟩
    case isFalse =>
      obtain ⟨hmem, hport⟩ := findTransaction_some (q := q) h
      exact ⟨List.mem_cons_of_mem _ hmem, hport⟩

theorem recallEntry_moves (p : Port) {x : Transaction} {s : State} (hx : findTransaction p s.layout.queue = some x) :
    Moves D s (recallEntry p x s) := by
  obtain ⟨hmem, hport⟩ := findTransaction_some hx
  have hstaging := setStaging_moves (D := D) p (es := x.edits) s fun hheld => by
    have hok : EditsOk x.port x.edits := hheld.2 _ hmem
    rwa [hport] at hok
  exact (hstaging.trans (setRecord_moves p .recalled _)).trans
    (setQueue_moves _ fun hqueued e he => hqueued e (List.mem_filter.1 he).1)

theorem recallTransaction_moves {p : Port} {s : State} (hw : InHand s p) (pl : List Byte) : Moves D s (recallTransaction p pl s) := by
  unfold recallTransaction
  split
  case h_1 x _ hx => exact reply_moves (recallEntry_moves p hx) hw rfl
  all_goals exact fillReply_moves hw _ _

theorem abandon_moves {p : Port} {s : State} (hw : InHand s p) (pl : List Byte) : Moves D s (abandon p pl s) := by
  unfold abandon
  split
  · exact fillReply_moves hw _ _
  · exact reply_moves (setStaging_moves p s fun _ e he => absurd he List.not_mem_nil) hw rfl

theorem touch_moves {p : Port} {s : State} (hw : InHand s p) (pl : List Byte) : Moves D s (touch p pl s) := by
  unfold touch
  dsimp only
  split
  · exact fillReply_moves hw _ _
  · exact reply_moves (quiet_moves ⟨rfl, fun _ => rfl⟩) hw rfl

theorem offerJob_moves {p : Port} {s : State} (hw : InHand s p) (j : Job) : Moves D s (offerJob p j s) := by
  unfold offerJob
  split
  · exact fillReply_moves hw _ _
  · split
    · exact fillReply_moves hw _ _
    · have hadmitted : Moves D s (admitJob j s) := moves_after (startNextJob_moves _) (quiet_moves ⟨rfl, fun _ => rfl⟩)
      have hlinks : (admitJob j s).links = s.links := by
        unfold admitJob
        rw [startNextJob_frame]
      exact reply_moves hadmitted hw hlinks

theorem jobFill_moves {p : Port} {s : State} (hw : InHand s p) (pl : List Byte) : Moves D s (jobFill p pl s) := by
  unfold jobFill
  split
  · exact fillReply_moves hw _ _
  · split
    · exact fillReply_moves hw _ _
    · exact offerJob_moves hw _

theorem jobCopy_moves {p : Port} {s : State} (hw : InHand s p) (pl : List Byte) : Moves D s (jobCopy p pl s) := by
  unfold jobCopy
  repeat' split
  all_goals first
    | exact fillReply_moves hw _ _
    | exact offerJob_moves hw _

theorem jobCancel_moves {p : Port} {s : State} (hw : InHand s p) (pl : List Byte) : Moves D s (jobCancel p pl s) := by
  unfold jobCancel
  split
  · exact fillReply_moves hw _ _
  · split
    · exact reply_moves (cancelJob_moves _ s) hw (cancelJob_links _ s)
    · exact reply_moves (beginAbort_moves _ s) hw (beginAbort_links _ s)
    · exact fillReply_moves hw _ _

theorem vote_moves {p : Port} {s : State} (hw : InHand s p) (hopen : OpenAt s p) (pl : List Byte) : Moves D s (vote p pl s) := by
  unfold vote
  split
  · exact fillReply_moves hw _ _
  case h_2 v _ =>
    exact reply_moves (panel_moves (changeVote_panel (p := p) (v := some v) (iff_of_true rfl hopen))) hw (changeVote_links _ _ s)

theorem supInhibit_moves {p : Port} {s : State} (hw : InHand s p) (pl : List Byte) : Moves D s (supInhibit p pl s) := by
  unfold supInhibit
  split
  · exact fillReply_moves hw _ _
  · exact reply_moves (panel_moves (changeInhibit_panel _ s)) hw (changeInhibit_links _ s)

theorem num8_le (pl : List Byte) (i : Nat) : num8 pl i ≤ 255 := Nat.le_of_lt_succ (BitVec.isLt (w := 8) _)

theorem supPowerTimes_moves {p : Port} {s : State} (hw : InHand s p) (pl : List Byte) : Moves D s (supPowerTimes p pl s) := by
  unfold supPowerTimes
  split
  · exact fillReply_moves hw _ _
  case isFalse htail =>
    exact reply_moves (panel_moves (powerTimes_panel (num8_le pl 0) (Nat.one_le_iff_ne_zero.2 htail) (num8_le pl 1))) hw rfl

theorem rowDone_moves (j : Job) (s : State) : Moves D s (rowDone j s) := by
  unfold rowDone
  dsimp only
  split
  · exact (setJobs_moves s _).trans (endJob_moves _ _ _)
  all_goals
    split
    · exact quiet_moves ⟨rfl, fun _ => rfl⟩
    · exact (setJobs_moves s _).trans (endJob_moves _ _ _)

/-- The engine's row, or a line fetch, leaves the frame store (R94, R120). -/
theorem freeStore_moves {s : State} (h : ∀ p, owesReply s.arb.busy p = false) : Moves D s (freeStore s) :=
  quiet_moves ⟨rfl, fun p => (h p).symm⟩

theorem execRowCompletion_moves {s t : State} (h : execRowCompletion s = .next t) : Moves D s t := by
  unfold execRowCompletion at h
  split at h
  case h_1 hbusy =>
    have hfree : Moves D s (freeStore s) := freeStore_moves fun p => by rw [hbusy]; rfl
    split at h
    · cases h; exact hfree
    · split at h
      · cases h; exact (hfree.trans (rowDone_moves _ _)).trans (settleSessions_moves _)
      · cases h; exact hfree
  all_goals cases h; exact moves_refl s

/-! ### Every command -/

/-- A request that a block has taken (R154). -/
structure Taken (k : Kind) (s : State) (p : Port) : Prop where
  hand : InHand s p
  opened : needsSession k = true → OpenAt s p
  supervisor : isSupervisorKind k = true → p = s.supv

theorem taken_of_check {k : Kind} {s : State} {p : Port} {w : Work} (hw : untaken p k s = some w)
    (hcheck : sessionCheck p w s = none) : Taken k s p := by
  obtain ⟨-, rfl, -⟩ := untaken_eq_some.1 hw
  unfold sessionCheck at hcheck
  dsimp only at hcheck
  split at hcheck
  · cases hcheck
  case isFalse hsupv =>
    split at hcheck
    · cases hcheck
    case isFalse hsession =>
      refine ⟨inHand_of_untaken hw, fun h => ?_, fun h => ?_⟩
      · exact by_contra fun hne => hsession ⟨h, hne⟩
      · exact by_contra fun hne => hsupv ⟨h, .inl hne⟩

/-- A request row does what every answer of its block does. -/
theorem takeRequest_moves {p : Port} {k : Kind} {act : List Byte → State → State} {s : State}
    (h : Taken k s p → ∀ pl, Moves D s (act pl s)) : Moves D s (takeRequest p k act s) :=
  takeRequest_ind (moves_refl s) (fun _ st hw => fillReply_moves (inHand_of_untaken hw) st [])
    (fun w hw hcheck => h (taken_of_check hw hcheck) w.payload)

theorem takeEdit_moves (p : Port) (code : Nat) (s : State) : Moves D s (takeEdit p code s) :=
  takeEdit_ind (moves_refl s) (fun _ st hw => fillReply_moves (inHand_of_untaken hw) st [])
    (fun w hw _ => stageEdit_moves (inHand_of_untaken hw) w.payload)

end

theorem takeRequest_ran {p : Port} {k : Kind} {act : List Byte → State → State} {s : State}
    (h : Taken k s p → ∀ pl, Ran s (act pl s)) : Ran s (takeRequest p k act s) :=
  takeRequest_ind (ran_of_moves (moves_refl s)) (fun _ st hw => ran_of_moves (fillReply_moves (inHand_of_untaken hw) st []))
    (fun w hw hcheck => h (taken_of_check hw hcheck) w.payload)

theorem closeSession_ran {p : Port} {s : State} (hw : InHand s p) (pl : List Byte) : Ran s (closeSession p pl s) :=
  (ran_teardown p _).after (fillReply_moves hw _ _)

theorem supEvictSession_ran {p : Port} {s : State} (hw : InHand s p) (hsupv : p = s.supv) (pl : List Byte) :
    Ran s (supEvictSession p pl s) := by
  unfold supEvictSession
  split
  · exact ran_of_moves (fillReply_moves hw _ _)
  case h_2 q _ =>
    dsimp only
    split
    · exact ran_of_moves (fillReply_moves hw _ _)
    case isFalse hq =>
      split
      · exact ran_of_moves (fillReply_moves hw _ _)
      · exact ran_of_moves (fillReply_moves hw _ _)
      · refine (ran_teardown q s).reply ?_ _ _
        obtain ⟨w, hw, hposted⟩ := hw
        refine ⟨w, ?_, hposted⟩
        rw [teardown_links_ne (p := q) (q := p) (fun h => hq (h.symm.trans hsupv)), hw]

/-- The request rows, but for OPEN and DEVICE_RESET. -/
theorem exec_request_ran {c : Instr} {s t : State} {p : Port} {k : Kind} (hrow : requestRow c = some (p, k))
    (hopen : ∀ q, c ≠ .openSession q) (hreset : ∀ q, c ≠ .deviceReset q) (h : exec c s = .next t) : Ran s t := by
  have hmoves : ∀ {q : Port} {k : Kind} {act : List Byte → State → State},
      (Taken k s q → ∀ pl, Moves (fun _ => False) s (act pl s)) → Ran s (takeRequest q k act s) :=
    fun h => ran_of_moves (takeRequest_moves h)
  cases c
  case openSession q => exact absurd rfl (hopen q)
  case deviceReset q => exact absurd rfl (hreset q)
  case identify q => cases h; exact hmoves fun hk pl => fillReply_moves hk.hand _ _
  case closeSession q => cases h; exact takeRequest_ran fun hk pl => closeSession_ran hk.hand pl
  case supEvictSession q => cases h; exact takeRequest_ran fun hk pl => supEvictSession_ran hk.hand (hk.supervisor rfl) pl
  case noticeRead q => cases h; exact hmoves fun hk pl => noticeRead_moves hk.hand pl
  case noticeSubscribe q => cases h; exact hmoves fun hk pl => noticeSubscribe_moves hk.hand pl
  case surfAlloc q => cases h; exact hmoves fun hk pl => surfAlloc_moves hk.hand pl
  case surfFree q => cases h; exact hmoves fun hk pl => surfFree_moves hk.hand pl
  case surfInfo q => cases h; exact hmoves fun hk pl => surfInfo_moves hk.hand pl
  case pixWrite q => cases h; exact hmoves fun hk pl => pixWrite_moves hk.hand (hk.opened rfl) pl
  case pixRead q => cases h; exact hmoves fun hk pl => pixRead_moves hk.hand (hk.opened rfl) pl
  case supQuota q => cases h; exact hmoves fun hk pl => supQuota_moves hk.hand pl
  case palGrant q => cases h; exact hmoves fun hk pl => palGrant_moves hk.hand pl
  case palRelease q => cases h; exact hmoves fun hk pl => palRelease_moves hk.hand pl
  case palSeek q => cases h; exact hmoves fun hk pl => palSeek_moves hk.hand pl
  case palWrite q => cases h; exact hmoves fun hk pl => palWrite_moves hk.hand pl
  case palRead q => cases h; exact hmoves fun hk pl => palRead_moves hk.hand pl
  case submit q => cases h; exact hmoves fun hk pl => submit_moves hk.hand pl
  case abandon q => cases h; exact hmoves fun hk pl => abandon_moves hk.hand pl
  case touch q => cases h; exact hmoves fun hk pl => touch_moves hk.hand pl
  case jobFill q => cases h; exact hmoves fun hk pl => jobFill_moves hk.hand pl
  case jobCopy q => cases h; exact hmoves fun hk pl => jobCopy_moves hk.hand pl
  case jobCancel q => cases h; exact hmoves fun hk pl => jobCancel_moves hk.hand pl
  case vote q => cases h; exact hmoves fun hk pl => vote_moves hk.hand (hk.opened rfl) pl
  case supInhibit q => cases h; exact hmoves fun hk pl => supInhibit_moves hk.hand pl
  case supPowerTimes q => cases h; exact hmoves fun hk pl => supPowerTimes_moves hk.hand pl
  case editBandPut q | editBandDrop q | editBandView q | editBandSurface q | editSetTiming q | editSetRegion q |
      editSetBackground q | editSetStaleColour q | editEvictBand q => cases h; exact ran_of_moves (takeEdit_moves q _ s)
  all_goals cases hrow
  -- RECALL is left: its constructor's name is also a keyword, which `case` cannot take
  cases h; exact hmoves fun hk pl => recallTransaction_moves hk.hand pl

/-! ### The events at the pins and the panel -/

/-- A command that either takes an event or changes nothing. -/
theorem moves_of_ite {P : Prop} [Decidable P] {s t u : State} (hu : P → Moves (fun _ => False) s u)
    (h : (if P then (.next u : Host.Outcome State Fault Refusal) else .next s) = .next t) : Ran s t := by
  split at h
  case isTrue hp => cases h; exact ran_of_moves (hu hp)
  case isFalse => cases h; exact ran_of_moves (moves_refl s)

theorem execRequestWindowClose_ran {p : Port} {held : Bool} {bits : List Bool} {s t : State}
    (h : execRequestWindowClose p held bits s = .next t) : Ran s t := by
  unfold execRequestWindowClose at h
  dsimp only at h
  split at h
  case isTrue htaken =>
    have hpins : (s.links.get p).rstLow = false ∧ (s.links.get p).csLow = false := by
      simp only [windowTaken, Bool.and_eq_true, Bool.not_eq_true'] at htaken
      obtain ⟨⟨⟨⟨hrst, -⟩, hcs⟩, -⟩, -⟩ := htaken
      exact ⟨hrst, hcs⟩
    obtain ⟨hrst, hcs⟩ := hpins
    have hlink : ∀ n, ((shiftZeros p n s).links.get p) = { s.links.get p with sdo := List.replicate n 0#8 } := fun n =>
      PerPort.get_set_same _ _ _
    split at h
    case h_1 hstate =>
      cases h
      exact (dropFrame_ran (by rw [hlink]; exact hstate) _).after (shiftZeros_moves p _ s)
    case h_2 hstate | h_3 hstate =>
      cases h
      exact (takeFrame_ran (by rw [hlink]; exact hrst) (by rw [hlink]; exact hcs) (by rw [hlink]; simp [hstate]) _).after
        (shiftZeros_moves p _ s)
  case isFalse =>
    cases h
    exact ran_of_moves (moves_refl s)

theorem rstnRise_moves {D : Port → Prop} (p : Port) (s : State) :
    Moves D s (s.setLink p { s.links.get p with rstLow := false }) :=
  setLink_moves fun ⟨h1, h2, h3, _, h5, h6, h7⟩ => ⟨⟨h1, h2, h3, fun h => (by cases h), h5, h6, h7⟩, Iff.rfl⟩

theorem execFetchWindowOpen_ran {p : Port} {s t : State} (h : execFetchWindowOpen p s = .next t) : Ran s t := by
  unfold execFetchWindowOpen at h
  dsimp only at h
  split at h
  · cases h
    exact ran_of_moves (setLink_moves fun ⟨h1, h2, h3, h4, _, h6, h7⟩ => ⟨⟨h1, h2, h3, h4, fun _ => rfl, h6, h7⟩, Iff.rfl⟩)
  case isFalse hfree =>
    cases h
    obtain ⟨hrst, -⟩ := not_or.1 hfree
    refine ran_of_moves (setLink_moves fun ⟨h1, h2, h3, _, _, _, _⟩ => ⟨⟨h1, h2, h3, fun h => absurd h hrst, fun _ => rfl, ?_, rfl⟩, Iff.rfl⟩)
    intro w hw hslot
    cases hw
    unfold chooseReply at hslot ⊢
    dsimp only at hslot ⊢
    split at hslot
    case h_1 => simp only [*]
    all_goals cases hslot

/-- A fetch window ends: the reply it showed whole has left the slot, or the link is as it was (R153). -/
theorem LinkOk.endFetch {l : Link} (h : LinkOk l) {w : FetchWindow} (hw : l.window = some w) (n : Nat) :
    LinkOk (endFetch w (shiftReply w n l)) ∧ ((endFetch w (shiftReply w n l)).waits ↔ l.waits) := by
  obtain ⟨hexec, hslot, hover, hheld, hsel, hshown, hprog⟩ := h
  have hrst : l.rstLow = false := Bool.eq_false_iff.2 fun hr => by
    obtain ⟨-, hnone⟩ := hheld hr
    rw [hw] at hnone
    cases hnone
  have hheld' : ∀ {P : Prop}, l.rstLow = true → P := fun hr => by
    rw [hrst] at hr
    cases hr
  unfold Machine.endFetch
  dsimp only
  split
  case isTrue hwhole =>
    obtain ⟨hfrom, -⟩ := hwhole
    have hready : l.state = .replyReady := hslot.2 (by rw [hshown w hw hfrom]; rfl)
    have hnone : ¬l.work.isSome = true := fun hwork => by
      rw [hexec.2 hwork] at hready
      cases hready
    refine ⟨⟨iff_of_false (fun h => by cases h) hnone, iff_of_false (fun h => by cases h) Bool.false_ne_true, fun ho => ?_,
      fun hr => hheld' hr, fun h => absurd rfl h, fun _ h => (by cases h), rfl⟩, Iff.rfl⟩
    rw [hover ho] at hready
    cases hready
  case isFalse =>
    exact ⟨⟨hexec, hslot, hover, fun hr => hheld' hr, fun h => absurd rfl h, fun _ h => (by cases h), rfl⟩, Iff.rfl⟩

theorem execFetchWindowClose_ran {p : Port} {edges : Nat} {s t : State} (h : execFetchWindowClose p edges s = .next t) : Ran s t := by
  unfold execFetchWindowClose at h
  dsimp only at h
  split at h
  case h_1 hw =>
    cases h
    refine ran_of_moves (setLink_moves fun ⟨h1, h2, h3, h4, _, h6, h7⟩ => ⟨⟨h1, h2, h3, h4, fun h => absurd hw h, h6, h7⟩, Iff.rfl⟩)
  case h_2 w hw =>
    cases h
    exact ran_of_moves (setLink_moves fun h => h.endFetch hw _)

theorem execPortAccessCompletion_ran {s t : State} (h : execPortAccessCompletion s = .next t) : Ran s t := by
  unfold execPortAccessCompletion at h
  split at h
  case h_1 p st pl due hbusy =>
    split at h
    case isTrue hdue =>
      subst hdue
      cases h
      exact ran_of_moves (Move.complete hbusy).moves
    case isFalse hdue =>
      cases h
      refine ran_of_moves (freeStore_moves fun q => ?_)
      simp only [hbusy, owesReply, Bool.eq_false_iff.2 hdue, Bool.false_and]
  all_goals cases h; exact ran_of_moves (moves_refl s)

theorem execLineFetchCompletion_ran {s t : State} (h : execLineFetchCompletion s = .next t) : Ran s t := by
  unfold execLineFetchCompletion at h
  split at h
  case h_1 f bytes hbusy =>
    cases h
    exact ran_of_moves (quiet_moves ⟨rfl, fun p => by rw [hbusy]; rfl⟩)
  all_goals cases h; exact ran_of_moves (moves_refl s)

theorem part_panel (s : State) (x : LinePart) : PanelStep s { s with timing := { s.timing with part := x } } :=
  panelStep_of_generator rfl rfl rfl fun ⟨h1, h2, h3, h4, h5, h6, h7⟩ => ⟨h1, h2, h3, h4, h5, h6, h7⟩

/-- The rows of the pins, the windows, the frame store and the panel, but for POWER_ON_RESET and FRAME_STORE_GRANT. -/
theorem exec_event_ran {c : Instr} {s t : State} (hrow : requestRow c = none) (hon : ∀ v k, c ≠ .powerOnReset v k)
    (hgrant : c ≠ .frameStoreGrant) (h : exec c s = .next t) : Ran s t := by
  cases c
  case powerOnReset v k => exact absurd rfl (hon v k)
  case frameStoreGrant => exact absurd rfl hgrant
  case rstnFall p =>
    change (if (s.links.get p).rstLow then _ else _) = _ at h
    split at h
    · cases h; exact ran_of_moves (moves_refl s)
    · cases h; exact ran_portReset p _ s
  case rstnRise p => cases h; exact ran_of_moves (rstnRise_moves p s)
  case requestWindowClose p held bits => exact execRequestWindowClose_ran h
  case fetchWindowOpen p => exact execFetchWindowOpen_ran h
  case fetchWindowClose p edges => exact execFetchWindowClose_ran h
  case portReset p pl =>
    change (if _ then _ else _) = _ at h
    split at h
    · cases h; exact ran_of_moves (moves_refl s)
    · cases h; exact ran_portReset p _ s
  case portAccessCompletion => exact execPortAccessCompletion_ran h
  case rowCompletion => exact ran_of_moves (execRowCompletion_moves h)
  case lineStart =>
    obtain rfl | hpanel := execLineStart_panel h
    · exact ran_of_moves (moves_refl _)
    · exact ran_of_moves (panel_moves hpanel)
  case frameStart => exact moves_of_ite (fun hdue => panel_moves (takeFrameStart_panel hdue)) h
  case bandMarkedStale k => exact moves_of_ite (fun hdue => panel_moves (takeFrameStart_panel hdue.1)) h
  case vblankStart => exact moves_of_ite (fun hat => takeVblank_moves hat) h
  case leadCountReached => exact moves_of_ite (fun hat => takeVblank_moves hat.1) h
  case tailCountReached => exact moves_of_ite (fun hat => takeVblank_moves hat.1) h
  case timingStopped => exact moves_of_ite (fun _ => Move.stop.moves) h
  case lineFetchCompletion => exact execLineFetchCompletion_ran h
  case backPorchStart => exact moves_of_ite (fun _ => panel_moves (part_panel s .backPorch)) h
  case displayPartStart => exact moves_of_ite (fun _ => panel_moves (part_panel s .display)) h
  all_goals cases hrow

/-- Every command but POWER_ON_RESET, FRAME_STORE_GRANT, OPEN and DEVICE_RESET. -/
theorem exec_ran {c : Instr} {s t : State} (hon : ∀ v k, c ≠ .powerOnReset v k) (hgrant : c ≠ .frameStoreGrant)
    (hopen : ∀ p, c ≠ .openSession p) (hreset : ∀ p, c ≠ .deviceReset p) (h : exec c s = .next t) : Ran s t := by
  cases hrow : requestRow c with
  | none => exact exec_event_ran hrow hon hgrant h
  | some row => exact exec_request_ran (p := row.1) (k := row.2) hrow hopen hreset h

end Sys2Proof.Machine
end


section
/-! PROOFS. What every chain of moves keeps, and so every command (O2, O52); the laws of the frame store, the palette and the layout, which
every step keeps (O55, O56, O57). -/

namespace Sys2Proof.Machine

/-- The cases of a command: POWER_ON_RESET, FRAME_STORE_GRANT, OPEN at an IDLE session, DEVICE_RESET, or a chain of moves. -/
theorem exec_cases {c : Instr} {s t : State} (h : exec c s = .next t) :
    (∃ v k pins n d, t = State.powerOn v k pins n d s.pending) ∨ Granted s t ∨ Ran s t ∨
      (∃ p pl, Taken .openSession s p ∧ (s.sessions.get p).state = .idle ∧ t = openSession p pl s) ∨
        ∃ p, Taken .deviceReset s p ∧ t = fillReply p .ok [] (resetAll s) := by
  by_cases hon : ∃ v k, c = .powerOnReset v k
  · obtain ⟨v, k, rfl⟩ := hon
    cases h
    exact .inl ⟨_, _, _, _, _, rfl⟩
  by_cases hgrant : c = .frameStoreGrant
  · subst hgrant
    exact .inr (.inl (execFrameStoreGrant_granted h))
  by_cases hopen : ∃ p, c = .openSession p
  · obtain ⟨p, rfl⟩ := hopen
    have hrow : t = takeRequest p .openSession (openSession p) s := by
      cases h
      rfl
    obtain hidle | ⟨w, st, hw, -, hrefused⟩ | ⟨w, hw, hcheck, hacted⟩ := takeRequest_cases p .openSession (openSession p) s
    · rw [hrow, hidle]
      exact .inr (.inr (.inl (ran_of_moves (moves_refl s))))
    · rw [hrow, hrefused]
      exact .inr (.inr (.inl (ran_of_moves (fillReply_moves (inHand_of_untaken hw) _ _))))
    · have hk := taken_of_check hw hcheck
      rw [hrow, hacted]
      cases hstate : (s.sessions.get p).state with
      | idle => exact .inr (.inr (.inr (.inl ⟨p, _, hk, hstate, rfl⟩)))
      | opened =>
        rw [openSession, hstate]
        exact .inr (.inr (.inl (ran_of_moves (fillReply_moves hk.hand _ _))))
      | closing =>
        rw [openSession, hstate]
        exact .inr (.inr (.inl (ran_of_moves (fillReply_moves hk.hand _ _))))
  by_cases hreset : ∃ p, c = .deviceReset p
  · obtain ⟨p, rfl⟩ := hreset
    have hrow : t = takeRequest p .deviceReset (deviceReset p) s := by
      cases h
      rfl
    obtain hidle | ⟨w, st, hw, -, hrefused⟩ | ⟨w, hw, hcheck, hacted⟩ := takeRequest_cases p .deviceReset (deviceReset p) s
    · rw [hrow, hidle]
      exact .inr (.inr (.inl (ran_of_moves (moves_refl s))))
    · rw [hrow, hrefused]
      exact .inr (.inr (.inl (ran_of_moves (fillReply_moves (inHand_of_untaken hw) _ _))))
    · rw [hrow, hacted]
      exact .inr (.inr (.inr (.inr ⟨p, taken_of_check hw hcheck, rfl⟩)))
  exact .inr (.inr (.inl (exec_ran (fun v k hc => hon ⟨v, k, hc⟩) hgrant (fun p hc => hopen ⟨p, hc⟩) (fun p hc => hreset ⟨p, hc⟩) h)))

/-- A property of the palette, the allocator, the store, the layout and the queue of commands that each move keeps is kept by every
command, when POWER_ON_RESET and FRAME_STORE_GRANT keep it. -/
theorem exec_keeps {P : State → Prop} (hmove : ∀ {D : Port → Prop} {s t : State}, Move D s t → P s → P t)
    (hon : ∀ v k pins n d s, P s → P (State.powerOn v k pins n d s.pending)) (hgranted : ∀ {s t : State}, Granted s t → P s → P t)
    (hopened : ∀ {s : State} {p pl}, (s.sessions.get p).state = .idle → P s → P (openSession p pl s))
    (hreply : ∀ {s : State} {p st pl}, P s → P (fillReply p st pl s)) {c : Instr} {s t : State} (hs : P s)
    (h : exec c s = .next t) : P t := by
  obtain ⟨v, k, pins, n, d, rfl⟩ | hg | ⟨D, hm, -⟩ | ⟨p, pl, -, hidle, rfl⟩ | ⟨p, -, rfl⟩ := exec_cases h
  · exact hon _ _ _ _ _ s hs
  · exact hgranted hg hs
  · exact moves_keep hmove hm hs
  · exact hopened hidle hs
  · exact hreply (moves_keep hmove (resetAll_moves s) hs)

theorem openSession_idle {s : State} {p : Port} (pl : List Byte) (h : (s.sessions.get p).state = .idle) :
    openSession p pl s =
      fillReply p .ok [nextEpoch (s.sessions.get p).epoch, flagCode (decide (p = s.supv))]
        (((s.setSession p
                { state := .opened, epoch := nextEpoch (s.sessions.get p).epoch, label := some (labelAt pl),
                  withdrawalPending := false, surfacesPending := false }).setVote p (some .off)).setRecord p .noSubmit) := by
  unfold openSession
  dsimp only
  rw [h]

/-! ### The frame store and the queue of commands -/

/-- The straps, the frame store, the number of power-ons and the queue of commands are as they were. -/
structure Kept (s t : State) : Prop where
  supv : t.supv = s.supv
  preset : t.preset = s.preset
  store : t.store = s.store
  powerOns : t.powerOns = s.powerOns
  pending : t.pending = s.pending

theorem Move.kept {D : Port → Prop} {s t : State} (h : Move D s t) : Kept s t := by
  cases h
  case quiet h =>
    rw [h.frame]
    exact ⟨rfl, rfl, rfl, rfl, rfl⟩
  case panel h =>
    rw [h.frame]
    exact ⟨rfl, rfl, rfl, rfl, rfl⟩
  case stop =>
    rw [takeTimingStopped_frame, stopPass_frame]
    exact ⟨rfl, rfl, rfl, rfl, rfl⟩
  case discard =>
    rw [discardAccess_frame]
    exact ⟨rfl, rfl, rfl, rfl, rfl⟩
  case resetIdle p l _ =>
    rw [resetLink_frame]
    exact ⟨rfl, rfl, rfl, rfl, rfl⟩
  case resetOpen p l =>
    rw [dropAccesses, resetLink_frame]
    exact ⟨rfl, rfl, rfl, rfl, rfl⟩
  case pass =>
    rw [applicationPass, applyEntries_frame]
    exact ⟨rfl, rfl, rfl, rfl, rfl⟩
  case flags flag hs =>
    rw [setAbortFlags_frame]
    exact ⟨rfl, rfl, rfl, rfl, rfl⟩
  all_goals exact ⟨rfl, rfl, rfl, rfl, rfl⟩

/-- Settles O2: POWER_ON_RESET carries the queue over, a grant does not reach it, and no other command does. -/
theorem execKeepsTheQueue : Obligations.ExecKeepsTheQueue := by
  unfold Obligations.ExecKeepsTheQueue
  intro c s t h
  refine exec_keeps (P := fun u => u.pending = s.pending) ?_ ?_ ?_ ?_ ?_ rfl h
  · exact fun hm hu => hm.kept.pending.trans hu
  · exact fun v k pins n d u hu => hu
  · exact fun hg hu => hg.pending.trans hu
  · exact fun hidle hu => by rw [openSession_idle _ hidle]; exact hu
  · exact fun hu => hu

/-- Settles O52: POWER_ON_RESET empties the store, a grant stores runs that lie in it, and no other command touches it. -/
theorem storeKeepsItsForm : Obligations.StoreKeepsItsForm := by
  unfold Obligations.StoreKeepsItsForm
  intro s t hwf h
  refine step_invariant (P := fun s => Memory.wf s.store = true) (fun _ _ hs => hs) (fun c s t hs h => ?_) hwf h
  refine exec_keeps (P := fun s => Memory.wf s.store = true) ?_ ?_ ?_ ?_ ?_ hs h
  · exact fun hm hu => by rwa [hm.kept.store]
  · exact fun v k pins n d u _ => Memory.wf_nil
  · exact fun hg hu => hg.store_wf hu
  · exact fun hidle hu => by rw [openSession_idle _ hidle]; exact hu
  · exact fun hu => hu

/-! ### The palette -/

/-- What the entries of a pass keep, one by one, the pass keeps. -/
theorem applicationPass_keep {P : State → Prop} (hqueue : ∀ {s : State} q, P s → P (s.setQueue q))
    (htransaction : ∀ {s : State} x, P s → P (applyTransaction x s).1)
    (hwithdrawal : ∀ {s : State} p, P s → P (applyWithdrawal p s)) {s : State} (hs : P s) : P (applicationPass s).1 :=
  applyEntries_keep htransaction hwithdrawal _ (hqueue _ hs)

theorem GrantLaw.applyTransaction {s : State} (h : GrantLaw s.pal.records) (x : Transaction) :
    GrantLaw (applyTransaction x s).1.pal.records := by
  cases hedits : applyEdits x.port x.edits (Tentative.start s.layout.active) with
  | error k =>
    rw [applyTransaction_noBand hedits]
    exact h
  | ok v =>
    cases hv : validate s v.copy with
    | some f =>
      rw [applyTransaction_failed hedits hv]
      exact h
    | none =>
      rw [applyTransaction_accepted hedits hv, acceptCopy_pal]
      exact GrantLaw.publish (s := s.setRecord x.port .applied) h x.port

theorem GrantLaw.applicationPass {s : State} (h : GrantLaw s.pal.records) : GrantLaw (applicationPass s).1.pal.records := by
  refine applicationPass_keep (P := fun u => GrantLaw u.pal.records) (fun _ hu => hu) (fun x hu => hu.applyTransaction x)
    (fun p hu => ?_) h
  rw [applyWithdrawal_pal]
  exact hu.drop p rfl

theorem Move.grantLaw {D : Port → Prop} {s t : State} (h : Move D s t) (hs : GrantLaw s.pal.records) : GrantLaw t.pal.records := by
  cases h
  case quiet h =>
    rw [h.frame]
    exact hs
  case panel h =>
    rw [h.frame]
    exact hs
  case stop =>
    rw [takeTimingStopped_frame]
    exact GrantLaw.applicationPass (s := generatorStop s) hs
  case discard =>
    rw [discardAccess_frame]
    exact hs
  case resetIdle p l _ =>
    rw [resetLink_frame]
    exact hs
  case resetOpen p l =>
    rw [dropAccesses, resetLink_frame]
    exact hs
  case pass => exact hs.applicationPass
  case dropCursor p => exact hs.dropCursor p
  case grant hsize hbase => exact hs.makeGrant hsize hbase
  case dropRecord p => exact hs.drop p rfl
  case cursor p draft c mark hc =>
    refine hs.keep rfl fun g hg c' hc' => ?_
    cases hc'
    exact hc g hg (hs.cursorOf hg)
  case resetPalette => exact grantLaw_every_absent
  case flags flag hs' =>
    rw [setAbortFlags_frame]
    exact hs
  all_goals exact hs

/-- Settles O56: grants are made apart from the others, at the base that the search finds, and cursors move inside them. -/
theorem grantsStayApart : Obligations.GrantsStayApart := by
  unfold Obligations.GrantsStayApart
  intro law s t hs h
  refine step_invariant (P := fun s => GrantLaw s.pal.records) (fun _ _ hs => hs) (fun c s t hs h => ?_) hs h
  refine exec_keeps (P := fun s => GrantLaw s.pal.records) ?_ ?_ ?_ ?_ ?_ hs h
  · exact fun hm hs => hm.grantLaw hs
  · exact fun v k pins n d u _ => grantLaw_every_absent
  · intro u v hg hu
    cases hg <;> exact hu
  · exact fun hidle hu => by rw [openSession_idle _ hidle]; exact hu
  · exact fun hu => hu

/-! ### The frame store's blocks -/

/-- Freeing entries that hold blocks, one after another, keeps the law. -/
theorem AllocLaw.freeFold {cond : State → Fin 32 → Bool} (hcond : ∀ u i, cond u i = true → (u.alloc.table.get i).state ≠ .free) :
    ∀ (is : List (Fin 32)) {s : State}, AllocLaw s.alloc →
      AllocLaw (is.foldl (fun t i => if cond t i then Machine.freeSurface i t else t) s).alloc
  | [], _, h => h
  | i :: is, s, h => by
    refine AllocLaw.freeFold hcond is (s := if cond s i then Machine.freeSurface i s else s) ?_
    split
    case isTrue hc => exact h.freeSurface (hcond s i hc)
    case isFalse => exact h

theorem AllocLaw.of_blocks {a a' : Allocator} (h : AllocLaw a) (htable : a'.table = a.table) (hfree : a'.free = a.free)
    (hcharge : a'.charge = a.charge) : AllocLaw a' :=
  h.of_sameBlocks hfree hcharge fun i => by
    rw [htable]
    exact ⟨Iff.rfl, rfl, rfl, rfl⟩

theorem AllocLaw.freeWhere {s : State} (h : AllocLaw s.alloc) {cond : SurfEntry → Bool}
    (hcond : ∀ e, cond e = true → e.state ≠ .free) : AllocLaw (freeWhere cond s).alloc := by
  unfold Machine.freeWhere
  exact AllocLaw.freeFold (cond := fun t i => cond (t.alloc.table.get i)) (fun _ _ hc => hcond _ hc) _ h

theorem AllocLaw.surfacesReport {s : State} (h : AllocLaw s.alloc) (p : Port) : AllocLaw (surfacesReport p s).alloc := by
  unfold Machine.surfacesReport
  split
  · exact h.of_blocks rfl rfl rfl
  · exact h

theorem AllocLaw.applyWithdrawal {s : State} (h : AllocLaw s.alloc) (p : Port) : AllocLaw (applyWithdrawal p s).alloc := by
  rw [applyWithdrawal_eq, State.setSession_alloc, withdrawalReport_eq]
  have hmarked : AllocLaw
      { (withdrawnTables p s).alloc with withdrawalOut := (withdrawnTables p s).alloc.withdrawalOut.set p false } :=
    h.of_blocks rfl rfl rfl
  refine AllocLaw.surfacesReport (hmarked.freeWhere (s := { withdrawnTables p s with alloc := _ }) fun e hc hfree => ?_) p
  obtain ⟨-, hret, -⟩ := freedAtWithdrawal_iff.1 hc
  rw [hfree] at hret
  cases hret

theorem AllocLaw.applicationPass {s : State} (h : AllocLaw s.alloc) : AllocLaw (applicationPass s).1.alloc := by
  refine applicationPass_keep (P := fun u => AllocLaw u.alloc) (fun _ hu => hu) (fun x hu => ?_) (fun p hu => hu.applyWithdrawal p) h
  rwa [applyTransaction_frame]

/-- A change of an entry's flag or of a state other than FREE moves no block. -/
theorem sameBlocks_of_state {e : SurfEntry} {st : SurfState} (flag : Bool) (h : st = .free ↔ e.state = .free) :
    SameBlocks e { e with state := st, pendingAbort := flag } := ⟨h, rfl, rfl, rfl⟩

theorem AllocLaw.setAbortFlags {s : State} (h : AllocLaw s.alloc) (flag : Bool) (hs : List Handle) :
    AllocLaw (setAbortFlags flag hs s).alloc := by
  have hkept := setAbortFlags_alloc flag hs s
  refine h.of_sameBlocks (by rw [hkept]) (by rw [hkept]) fun i => ?_
  obtain ⟨hset, hother⟩ := setAbortFlags_get flag i hs s
  by_cases hnamed : NamedByHandles s hs i
  · rw [hset hnamed]
    exact sameBlocks_of_state flag Iff.rfl
  · rw [hother hnamed]
    exact sameBlocks_of_state _ Iff.rfl

theorem retiring_iff_free {st : SurfState} (h : st ≠ .free) : SurfState.retiring = .free ↔ st = .free :=
  ⟨fun hr => (by cases hr), fun hst => absurd hst h⟩

theorem Move.allocLaw {D : Port → Prop} {s t : State} (h : Move D s t) (hs : AllocLaw s.alloc) : AllocLaw t.alloc := by
  cases h
  case quiet h =>
    rw [h.frame]
    exact hs
  case panel h =>
    rw [h.frame]
    exact hs
  case stop =>
    rw [takeTimingStopped_frame]
    exact AllocLaw.applicationPass (s := generatorStop s) hs
  case discard =>
    rw [discardAccess_frame]
    exact hs
  case resetIdle p l _ =>
    rw [resetLink_frame]
    exact hs
  case resetOpen p l =>
    rw [dropAccesses, resetLink_frame]
    exact hs
  case pass => exact hs.applicationPass
  case flags flag hs' => exact hs.setAbortFlags flag hs'
  case free i hi => exact hs.freeSurface hi
  case retire i hi =>
    refine hs.of_sameBlocks rfl rfl fun j => ?_
    change SameBlocks _ ((s.alloc.table.set i.val _ i.isLt).get j)
    rw [vector_get_set]
    split
    case isTrue hj =>
      subst hj
      exact sameBlocks_of_state _ (retiring_iff_free hi)
    case isFalse => exact sameBlocks_of_state _ Iff.rfl
  case retireAll p =>
    refine hs.of_sameBlocks rfl rfl fun j => ?_
    change SameBlocks _ ((retireSurfaces p s.alloc.table).get j)
    simp only [retireSurfaces, Vector.get_eq_getElem, Vector.getElem_map]
    split
    case isTrue hlive => exact sameBlocks_of_state _ (retiring_iff_free (by rw [hlive.1]; decide))
    case isFalse => exact sameBlocks_of_state _ Iff.rfl
  case marks quota out owed => exact hs.of_blocks rfl rfl rfl
  case take hw hh hfree hrun =>
    exact hs.takeSurface hfree (fun hlive => by cases hlive) (one_le_blocksOf hw hh) hrun
  case resetAllocator => exact allocLaw_resetAllocator s
  all_goals exact hs

/-- Settles O55: surfaces take their blocks from the free list by first fit and give them back to it, and the charges follow. -/
theorem blocksStayAccounted : Obligations.BlocksStayAccounted := by
  unfold Obligations.BlocksStayAccounted
  intro s t hs h
  refine step_invariant (P := fun s => AllocLaw s.alloc) (fun _ _ hs => hs) (fun c s t hs h => ?_) hs h
  refine exec_keeps (P := fun s => AllocLaw s.alloc) ?_ ?_ ?_ ?_ ?_ hs h
  · exact fun hm hs => hm.allocLaw hs
  · exact fun v k pins n d u _ => allocLaw_powerOn
  · intro u v hg hu
    cases hg <;> exact hu
  · exact fun hidle hu => by rw [openSession_idle _ hidle]; exact hu
  · exact fun hu => hu

/-! ### The layout -/

theorem Move.layoutControlLaw {D : Port → Prop} {s t : State} (h : Move D s t) (hs : LayoutControlLaw s.layout) : LayoutControlLaw t.layout := by
  cases h
  case quiet h =>
    rw [h.frame]
    exact hs
  case panel h =>
    rw [h.frame]
    exact hs
  case stop =>
    rw [takeTimingStopped_frame]
    exact LayoutControlLaw.applicationPass (s := generatorStop s) hs
  case discard =>
    rw [discardAccess_frame]
    exact hs
  case resetIdle p l _ =>
    rw [resetLink_frame]
    exact hs
  case resetOpen p l =>
    rw [dropAccesses, resetLink_frame]
    exact hs
  case pass => exact hs.applicationPass
  case edits l hactive hheld =>
    obtain ⟨hok, hedits⟩ := hs
    exact ⟨by rwa [hactive], hheld hedits⟩
  case resetLayout =>
    obtain ⟨hok, -⟩ := hs
    refine ⟨⟨fun b hb => absurd hb List.not_mem_nil, List.Pairwise.nil, List.nodup_nil, rfl, hok.timing⟩, fun p e he => ?_,
      fun e he => absurd he List.not_mem_nil⟩
    rw [show (Machine.resetLayout s).layout.staging.get p = [] from PerPort.get_every [] p] at he
    cases he
  case flags flag hs' =>
    rw [setAbortFlags_frame]
    exact hs
  all_goals exact hs

/-- Settles O57: edits are staged only when their port may stage them, and a copy becomes active only when validation passes it. -/
theorem layoutStaysValid : Obligations.LayoutStaysValid := by
  unfold Obligations.LayoutStaysValid
  intro law s t hs h
  refine step_invariant (P := fun s => LayoutControlLaw s.layout) (fun _ _ hs => hs) (fun c s t hs h => ?_) hs h
  refine exec_keeps (P := fun s => LayoutControlLaw s.layout) ?_ ?_ ?_ ?_ ?_ hs h
  · exact fun hm hs => hm.layoutControlLaw hs
  · intro v k pins n d u _
    obtain ⟨hactive, hstaged, hqueued, -⟩ := layoutLaw_powerOn v k pins n d u.pending
    exact ⟨hactive, hstaged, hqueued⟩
  · intro u v hg hu
    cases hg <;> exact hu
  · exact fun hidle hu => by rw [openSession_idle _ hidle]; exact hu
  · exact fun hu => hu

end Sys2Proof.Machine
end


section
/-! PROOFS. Every step keeps the timing generator and the power sequencer in step (O58). -/

namespace Sys2Proof.Machine

/-- The laws of the generator and of the sequencer, but for that of the votes. -/
def PanelLaws (s : State) : Prop := TimingLaw s ∧ SequencerLaw s

/-- The laws of the panel read the generator, the sequencer and the layout's timing parameters. -/
theorem PanelLaws.congr {s t : State} (h : PanelLaws s) (htiming : t.timing = s.timing) (hpower : t.power = s.power)
    (hlayout : t.layout.active.timing = s.layout.active.timing) : PanelLaws t := by
  obtain ⟨hs, hseq⟩ := h
  exact ⟨hs.congr hlayout htiming, hseq.congr hpower (by rw [htiming]) (by rw [htiming])⟩

section
variable {D : Port → Prop} {s t : State}

theorem Move.panelLaws (h : Move D s t) (hs : PanelLaws s) : PanelLaws t := by
  cases h
  case quiet h => exact hs.congr (by rw [h.frame]) (by rw [h.frame]) (by rw [h.frame])
  case panel h => exact h.laws hs.1 hs.2
  case stop => exact takeTimingStopped_laws hs.1 hs.2
  case pass hphase =>
    obtain ⟨ht, hseq⟩ := hs
    have hframe : (applicationPass s).1.power = s.power ∧ (applicationPass s).1.timing.run = s.timing.run ∧
        (applicationPass s).1.timing.stopPending = s.timing.stopPending := by
      rw [applicationPass, applyEntries_frame]
      exact ⟨rfl, rfl, rfl⟩
    obtain ⟨hpower, hrun, hstop⟩ := hframe
    exact ⟨ht.applicationPass hphase, hseq.congr hpower hrun hstop⟩
  case discard => exact hs.congr (by rw [discardAccess_frame]) (by rw [discardAccess_frame]) (by rw [discardAccess_frame])
  case resetIdle p l _ => exact hs.congr (by rw [resetLink_frame]; rfl) (by rw [resetLink_frame]; rfl) (by rw [resetLink_frame]; rfl)
  case resetOpen p l =>
    exact hs.congr (by rw [dropAccesses, resetLink_frame]; rfl) (by rw [dropAccesses, resetLink_frame]; rfl)
      (by rw [dropAccesses, resetLink_frame]; rfl)
  case flags flag hs' => exact hs.congr (by rw [setAbortFlags_frame]) (by rw [setAbortFlags_frame]) (by rw [setAbortFlags_frame])
  case edits l hactive _ => exact hs.congr rfl rfl (by rw [hactive])
  all_goals exact hs.congr rfl rfl rfl

/-- But for the sequencer's own steps no move changes the votes. -/
theorem Move.votes (h : Move D s t) : t.power.votes = s.power.votes ∨ PanelStep s t := by
  cases h
  case quiet h => exact .inl (by rw [h.frame])
  case panel h => exact .inr h
  case stop =>
    left
    cases hdemand : demand s with
    | false =>
      obtain ⟨-, -, -, hpower, -⟩ := takeTimingStopped_dark hdemand
      rw [hpower]
    | true =>
      rw [takeTimingStopped_demand hdemand, settleSessions_frame, deliverAny_power, beginFrame_frame]
      change (stopPass s).power.votes = s.power.votes
      rw [stopPass_power]
  case pass _ =>
    left
    rw [applicationPass, applyEntries_frame]
    rfl
  case discard => exact .inl (by rw [discardAccess_frame])
  case resetIdle p l _ => exact .inl (by rw [resetLink_frame]; rfl)
  case resetOpen p l => exact .inl (by rw [dropAccesses, resetLink_frame]; rfl)
  case flags flag hs' => exact .inl (by rw [setAbortFlags_frame])
  all_goals exact .inl rfl

/-- The vote of an OPEN session is present (R134). -/
theorem Move.vote_of_open (h : Move D s t) (hs : ∀ p, OpenAt s p → VoteAt s p) (p : Port) (hp : OpenAt t p) : VoteAt t p := by
  have hopen := h.openAt hp
  obtain hvotes | hpanel := h.votes
  · rw [VoteAt, hvotes]
    exact hs p hopen
  · exact hpanel.stays p hopen (hs p hopen)

/-- A move leaves a session OPEN, but for those it may close. -/
theorem Move.open_kept (h : Move D s t) {p : Port} (hs : OpenAt s p) : OpenAt t p ∨ D p := by
  cases h
  case quiet h => exact .inl ((openAt_congr (by rw [h.frame]) p).2 hs)
  case panel h => exact .inl ((openAt_congr (by rw [h.frame]) p).2 hs)
  case stop =>
    left
    rw [OpenAt, takeTimingStopped_frame, passAlone_frame]
    dsimp only
    rw [PerPort.get_map, settleSession_opened, stopPass_state]
    exact hs
  case pass _ =>
    left
    rw [OpenAt, applicationPass, applyEntries_state]
    exact hs
  case sessions v _ hv => exact (hv p hs).imp_right And.left
  case discard => exact .inl ((openAt_congr (discardAccess_sessions _ _ _) p).2 hs)
  case resetIdle q l _ => exact .inl ((openAt_congr (resetLink_sessions q l s) p).2 hs)
  case resetOpen q l => exact .inl ((openAt_congr (s := s) (t := dropAccesses q _) (resetLink_sessions q l s) p).2 hs)
  case flags flag hs' => exact .inl ((openAt_congr (by rw [setAbortFlags_frame]) p).2 hs)
  all_goals exact .inl hs

/-- A present vote is that of an OPEN session, or of one that may have closed. -/
theorem Move.open_of_vote (h : Move D s t) (hs : ∀ p, VoteAt s p → OpenAt s p ∨ D p) (p : Port) (hp : VoteAt t p) :
    OpenAt t p ∨ D p := by
  have hopen : OpenAt s p ∨ D p := by
    obtain hvotes | hpanel := h.votes
    · exact hs p (by rwa [VoteAt, hvotes] at hp)
    · exact (hpanel.appears p hp).elim (hs p) .inl
  exact hopen.elim h.open_kept .inr

end

theorem Granted.panel {s t : State} (h : Granted s t) :
    t.timing = s.timing ∧ t.power = s.power ∧ t.layout = s.layout ∧ t.sessions = s.sessions := by
  cases h <;> exact ⟨rfl, rfl, rfl, rfl⟩

theorem PowerLaw.panelLaws {s : State} (ht : TimingLaw s) (hp : PowerLaw s) : PanelLaws s := ⟨ht, hp.sequencer⟩

/-- Votes follow the sessions when only OPEN sessions have one, or lost it as they closed (R134). -/
theorem votes_of_ran {s t : State} (h : Ran s t) (hs : ∀ p, OpenAt s p ↔ VoteAt s p) (p : Port) : OpenAt t p ↔ VoteAt t p := by
  obtain ⟨D, hm, hclosed⟩ := h
  have hstays := moves_keep (P := fun u => ∀ p, OpenAt u p → VoteAt u p) (fun hm hu => hm.vote_of_open hu) hm fun p => (hs p).1
  have happears := moves_keep (P := fun u => ∀ p, VoteAt u p → OpenAt u p ∨ D p) (fun hm hu => hm.open_of_vote hu) hm
    fun p hp => .inl ((hs p).2 hp)
  refine ⟨hstays p, fun hp => (happears p hp).resolve_right fun hD => ?_⟩
  rw [VoteAt, hclosed p hD] at hp
  cases hp

theorem resetAll_closed (s : State) (p : Port) : ¬OpenAt (resetAll s) p := by
  unfold resetAll
  obtain ⟨u, hu⟩ : ∃ u, resetPalette (resetEngine (resetAllocator (resetLayout (discardAll s)))) = u := ⟨_, rfl⟩
  have hclosed : ∀ q, ¬OpenAt (resetSessions u) q := fun q h => by
    rw [OpenAt, resetSessions, PerPort.get_map] at h
    cases h
  rw [hu]
  exact mt (openAt_congr (by rw [(powerDeviceReset_panel hclosed).frame]) p).1 (hclosed p)

/-- OPEN gives its session the vote OFF, which changes no demand (R134, R166). -/
theorem opened_panelLaws {s : State} {p : Port} {x : Session} (h : PanelLaws s) (hnone : s.power.votes.get p = none) :
    PanelLaws ((s.setSession p x).setVote p (some .off)) := by
  obtain ⟨ht, hcounts, hcase⟩ := h
  have hdemand : demand ((s.setSession p x).setVote p (some .off)) = demand s := by
    unfold demand
    congr 1
    funext q
    change ((s.power.votes.set p (some Vote.off)).get q == some Vote.on) = (s.power.votes.get q == some Vote.on)
    rw [PerPort.get_set]
    split
    case isTrue hq =>
      subst hq
      rw [hnone]
      rfl
    case isFalse => rfl
  refine ⟨ht.congr rfl rfl, sequencerLaw_of_case rfl rfl rfl hdemand hcounts (hcase.congr rfl rfl rfl rfl)⟩

/-- Settles O58: every block's move keeps the laws, and a session that closes loses its vote in the same event. -/
theorem timingAndPowerAgree : Obligations.TimingAndPowerAgree := by
  unfold Obligations.TimingAndPowerAgree
  intro s t ht hp h
  refine step_invariant (P := fun s => TimingLaw s ∧ PowerLaw s) (fun s rest hs => ?_) (fun c s t hs h => ?_) ⟨ht, hp⟩ h
  · obtain ⟨ht, hp⟩ := hs
    have hlaws := PanelLaws.congr (t := { s with pending := rest }) (hp.panelLaws ht) rfl rfl rfl
    exact ⟨hlaws.1, powerLaw_of_sequencer hlaws.2 hp.votes⟩
  · obtain ⟨ht, hp⟩ := hs
    have hs := hp.panelLaws ht
    have hvotes : ∀ p, OpenAt s p ↔ VoteAt s p := hp.votes
    obtain ⟨v, k, pins, n, d, rfl⟩ | hg | hran | ⟨p, pl, -, hidle, rfl⟩ | ⟨p, -, rfl⟩ := exec_cases h
    · exact ⟨timingLaw_powerOn .., powerLaw_powerOn ..⟩
    · obtain ⟨htiming, hpower, hlayout, hsessions⟩ := hg.panel
      obtain ⟨ht', hseq⟩ := hs.congr htiming hpower (by rw [hlayout])
      refine ⟨ht', powerLaw_of_sequencer hseq fun p => ?_⟩
      rw [openAt_congr hsessions, VoteAt, hpower]
      exact hvotes p
    · have hvotes' := votes_of_ran hran hvotes
      obtain ⟨D, hm, -⟩ := hran
      obtain ⟨ht', hseq⟩ := moves_keep (P := PanelLaws) (fun hm hu => hm.panelLaws hu) hm hs
      exact ⟨ht', powerLaw_of_sequencer hseq hvotes'⟩
    · rw [openSession_idle pl hidle]
      obtain ⟨x, hx, hopen⟩ : ∃ x : Session,
          ({ state := .opened, epoch := nextEpoch (s.sessions.get p).epoch, label := some (labelAt pl), withdrawalPending := false,
             surfacesPending := false } : Session) = x ∧ x.state = .opened := ⟨_, rfl, rfl⟩
      rw [hx]
      have hnone : s.power.votes.get p = none := Option.not_isSome_iff_eq_none.1 fun hv => by
        have := (hvotes p).2 hv
        rw [OpenAt, hidle] at this
        cases this
      obtain ⟨ht', hseq⟩ := opened_panelLaws (p := p) (x := x) hs hnone
      have hlaws := PanelLaws.congr (t := fillReply p .ok [nextEpoch (s.sessions.get p).epoch, flagCode (decide (p = s.supv))]
        (((s.setSession p x).setVote p (some .off)).setRecord p .noSubmit)) ⟨ht', hseq⟩ rfl rfl rfl
      refine ⟨hlaws.1, powerLaw_of_sequencer hlaws.2 fun q => ?_⟩
      change ((s.sessions.set p x).get q).state = .opened ↔ ((s.power.votes.set p (some .off)).get q).isSome = true
      by_cases hq : q = p
      · subst hq
        rw [PerPort.get_set_same, PerPort.get_set_same]
        exact iff_of_true hopen rfl
      · rw [PerPort.get_set_ne _ _ hq, PerPort.get_set_ne _ _ hq]
        exact hvotes q
    · have hlaws : PanelLaws (resetAll s) := moves_keep (P := PanelLaws) (fun hm hu => hm.panelLaws hu) (resetAll_moves s) hs
      obtain ⟨ht', hseq⟩ : PanelLaws (fillReply p .ok [] (resetAll s)) := hlaws.congr rfl rfl rfl
      refine ⟨ht', powerLaw_of_sequencer hseq fun q => iff_of_false (resetAll_closed s q) ?_⟩
      change ¬(((resetAll s).power.votes.get q).isSome = true)
      rw [resetAll_votes]
      decide

end Sys2Proof.Machine
end


section
/-! PROOFS. Every step keeps each link in order, with the accesses that wait for the frame store (O54). -/

namespace Sys2Proof.Machine

theorem waitsForStore_iff {s : State} {p : Port} : waitsForStore s p ↔ (s.links.get p).waits := Iff.rfl

section
variable {s t : State}

/-- The laws of the links read the links, the waiting accesses, what the access in service owes, and which sessions are OPEN. -/
theorem LinkLaw.congr (h : LinkLaw s) (hlinks : t.links = s.links) (hports : t.arb.ports = s.arb.ports)
    (howed : ∀ p, owesReply t.arb.busy p = owesReply s.arb.busy p) (hopen : ∀ a ∈ s.arb.ports, OpenAt s a.port → OpenAt t a.port) :
    LinkLaw t := by
  obtain ⟨hlink, hwaiting, hone, hserved, hposted⟩ := h
  have hwaits : ∀ p, waitsForStore t p ↔ waitsForStore s p := fun p => by rw [waitsForStore, waitsForStore, hlinks]
  refine ⟨by rwa [hlinks], fun a ha => ?_, by rwa [hports], fun p hp => ?_, fun p hp => ?_⟩
  · rw [hports] at ha
    obtain ⟨hw, ho⟩ := hwaiting a ha
    exact ⟨(hwaits _).2 hw, hopen a ha ho⟩
  · rw [howed] at hp
    rw [hwaits, hports]
    exact hserved p hp
  · rw [hports, howed]
    exact hposted p ((hwaits p).1 hp)

/-- A port's link changes, and not whether its request waits for the frame store. -/
theorem LinkLaw.setLink (h : LinkLaw s) {p : Port} {l : Link} (hok : LinkOk l) (hwaits : l.waits ↔ (s.links.get p).waits) :
    LinkLaw (s.setLink p l) := by
  obtain ⟨hlink, hwaiting, hone, hserved, hposted⟩ := h
  have hsame : ∀ q, waitsForStore (s.setLink p l) q ↔ waitsForStore s q := fun q => by
    rw [waitsForStore_iff, waitsForStore_iff, State.setLink_links, PerPort.get_set]
    split
    case isTrue hq =>
      subst hq
      exact hwaits
    case isFalse => rfl
  refine ⟨fun q => ?_, fun a ha => ?_, hone, fun q hq => ?_, fun q hq => hposted q ((hsame q).1 hq)⟩
  · rw [State.setLink_links, PerPort.get_set]
    split
    · exact hok
    · exact hlink q
  · obtain ⟨hw, ho⟩ := hwaiting a ha
    exact ⟨(hsame _).2 hw, ho⟩
  · obtain ⟨hw, hnone⟩ := hserved q hq
    exact ⟨(hsame q).2 hw, hnone⟩

/-- A port's request no longer waits for the frame store, and its access has left. -/
theorem LinkLaw.release (h : LinkLaw s) {p : Port} (hlinks : ∀ q, q ≠ p → t.links.get q = s.links.get q)
    (hok : LinkOk (t.links.get p)) (hwaits : ¬(t.links.get p).waits)
    (hports : t.arb.ports = s.arb.ports.filter fun a => decide (a.port ≠ p))
    (howed : ∀ q, q ≠ p → owesReply t.arb.busy q = owesReply s.arb.busy q) (hpaid : owesReply t.arb.busy p = false)
    (hopen : t.sessions = s.sessions) : LinkLaw t := by
  obtain ⟨hlink, hwaiting, hone, hserved, hposted⟩ := h
  have hmem : ∀ a, a ∈ t.arb.ports ↔ a ∈ s.arb.ports ∧ a.port ≠ p := fun a => by
    rw [hports, List.mem_filter, decide_eq_true_iff]
  have hsame : ∀ q, q ≠ p → (waitsForStore t q ↔ waitsForStore s q) := fun q hq => by
    rw [waitsForStore, waitsForStore, hlinks q hq]
  refine ⟨fun q => ?_, fun a ha => ?_, ?_, fun q hq => ?_, fun q hq => ?_⟩
  · by_cases hqp : q = p
    · rw [hqp]
      exact hok
    · rw [hlinks q hqp]
      exact hlink q
  · obtain ⟨ha, hne⟩ := (hmem a).1 ha
    obtain ⟨hw, ho⟩ := hwaiting a ha
    exact ⟨(hsame _ hne).2 hw, by rwa [hopen]⟩
  · rw [hports]
    exact hone.sublist (List.filter_sublist.map _)
  · have hqp : q ≠ p := fun hqp => by
      rw [hqp, hpaid] at hq
      cases hq
    rw [howed q hqp] at hq
    obtain ⟨hw, hnone⟩ := hserved q hq
    exact ⟨(hsame q hqp).2 hw, fun a ha => hnone a ((hmem a).1 ha).1⟩
  · have hqp : q ≠ p := fun hqp => by
      rw [hqp] at hq
      exact hwaits hq
    rw [howed q hqp]
    obtain ⟨a, ha, haq⟩ | howes := hposted q ((hsame q hqp).1 hq)
    · exact .inl ⟨a, (hmem a).2 ⟨ha, by rwa [haq]⟩, haq⟩
    · exact .inr howes

/-- A port whose request does not wait has no access at the arbiter, and none in service owes it a reply. -/
theorem LinkLaw.none_of_not_waits (h : LinkLaw s) {p : Port} (hw : ¬waitsForStore s p) :
    (∀ a ∈ s.arb.ports, a.port ≠ p) ∧ owesReply s.arb.busy p = false := by
  refine ⟨fun a ha hp => hw ?_, Bool.eq_false_iff.2 fun howes => hw (h.served p howes).1⟩
  rw [← hp]
  exact (h.waiting a ha).1

theorem filter_ports_of_none {p : Port} {as : List PortAccess} (h : ∀ a ∈ as, a.port ≠ p) :
    (as.filter fun a => decide (a.port ≠ p)) = as :=
  List.filter_eq_self.2 fun a ha => decide_eq_true (h a ha)

/-- A link that waits executes, and is not held. -/
theorem LinkOk.of_waits {l : Link} (h : LinkOk l) (hw : l.waits) : l.rstLow = false ∧ l.state = .executing := by
  refine h.rstLow_of_work ?_
  rw [Link.waits] at hw
  cases hwork : l.work with
  | none => rw [hwork] at hw; cases hw
  | some w => rfl

/-- A port's waiting access is discarded (R69). -/
theorem LinkLaw.discardAccess (h : LinkLaw s) (a : Bool) (p : Port) : LinkLaw (discardAccess a p s) := by
  have hsessions := discardAccess_sessions a p s
  have hports := discardAccess_ports a p s
  have hbusy : (Machine.discardAccess a p s).arb.busy = s.arb.busy := by rw [discardAccess_frame]
  by_cases hwaits : ∃ x ∈ s.arb.ports, x.port = p
  · obtain ⟨x, hx, hxp⟩ := hwaits
    have hwait : waitsForStore s p := by
      rw [← hxp]
      exact (h.waiting x hx).1
    obtain ⟨hrst, hexec⟩ := (h.link p).of_waits hwait
    have hpaid : owesReply s.arb.busy p = false := Bool.eq_false_iff.2 fun howes => (h.served p howes).2 x hx hxp
    have hany : (s.arb.ports.any fun x => decide (x.port = p)) = true := List.any_eq_true.2 ⟨x, hx, decide_eq_true hxp⟩
    obtain ⟨w, hw⟩ : ∃ w, (s.links.get p).work = some w := by
      cases hwork : (s.links.get p).work with
      | none => rw [waitsForStore, hwork] at hwait; cases hwait
      | some w => exact ⟨w, rfl⟩
    have hlink : ∃ r, (Machine.discardAccess a p s).links =
        s.links.set p { s.links.get p with state := .replyReady, slot := some r, overrun := false, work := none } := by
      unfold Machine.discardAccess
      simp only [hany, hw, if_true]
      exact ⟨_, rfl⟩
    obtain ⟨r, hlink⟩ := hlink
    refine h.release (p := p) (fun q hq => ?_) ?_ ?_ hports (fun q _ => by rw [hbusy]) (by rwa [hbusy]) hsessions
    · rw [hlink, PerPort.get_set_ne _ _ hq]
    · rw [hlink, PerPort.get_set_same]
      exact (h.link p).replied hrst (.inl (by rw [hexec]; decide)) r
    · rw [hlink, PerPort.get_set_same]
      exact not_waits_of_none rfl
  · have hnone : ∀ x ∈ s.arb.ports, x.port ≠ p := fun x hx hxp => hwaits ⟨x, hx, hxp⟩
    have hany : (s.arb.ports.any fun x => decide (x.port = p)) = false :=
      List.any_eq_false.2 fun x hx => by simpa using hnone x hx
    have hlinks : (Machine.discardAccess a p s).links = s.links := by
      unfold Machine.discardAccess
      simp only [hany, Bool.false_eq_true, if_false]
    exact h.congr hlinks (by rw [hports, filter_ports_of_none hnone]) (fun q => by rw [hbusy])
      fun x _ hx => (openAt_congr hsessions x.port).2 hx

/-- What a reset leaves of the link is in order whatever the link was (R156). -/
theorem linkOk_reset (l : Link) :
    LinkOk
      { l with
        state := .ready, slot := none, overrun := false, execSeq := 0#8, work := none, window := none, progress := 0 } := by
  constructor <;> simp

theorem owesReply_resetLink (p : Port) (l : Link) (s : State) (q : Port) :
    owesReply (resetLink p (s.setLink p l)).arb.busy q = (owesReply s.arb.busy q && decide (q ≠ p)) := by
  rw [resetLink_eq]
  show owesReply (match s.arb.busy with
    | some (.portAccess q st pl due) => some (.portAccess q st pl (due && decide (q ≠ p)))
    | other => other) q = _
  cases s.arb.busy with
  | none => rfl
  | some x =>
    cases x with
    | portAccess q' st pl due =>
      simp only [owesReply]
      by_cases hq : q' = q
      · subst hq
        cases due <;> simp
      · simp [hq]
    | lineFetch f bs => rfl
    | engineRow orphan => rfl

theorem LinkLaw.reset (h : LinkLaw s) {p : Port} {l : Link} (hlinks : t.links = (resetLink p (s.setLink p l)).links)
    (hbusy : t.arb.busy = (resetLink p (s.setLink p l)).arb.busy)
    (hports : t.arb.ports = s.arb.ports.filter fun a => decide (a.port ≠ p)) (hsessions : t.sessions = s.sessions) : LinkLaw t := by
  have howed := owesReply_resetLink p l s
  rw [← hbusy] at howed
  rw [resetLink_links, State.setLink_links, PerPort.get_set_same, PerPort.set_set] at hlinks
  refine h.release (p := p) (fun q hq => ?_) ?_ ?_ hports (fun q hq => ?_) ?_ hsessions
  · rw [hlinks, PerPort.get_set_ne _ _ hq]
  · rw [hlinks, PerPort.get_set_same]
    exact linkOk_reset l
  · rw [hlinks, PerPort.get_set_same]
    exact not_waits_of_none rfl
  · rw [howed, decide_eq_true hq, Bool.and_true]
  · rw [howed]
    simp

/-- A block posts its access to the arbiter (R64, R67). -/
theorem LinkLaw.postAccess (h : LinkLaw s) {a : PortAccess} (hw : InHand s a.port) (hopen : OpenAt s a.port) :
    LinkLaw (postAccess a s) := by
  obtain ⟨hnone, hpaid⟩ := h.none_of_not_waits hw.not_waits
  obtain ⟨w, hwork, -⟩ := hw
  obtain ⟨hlink, hwaiting, hone, hserved, hposted⟩ := h
  have hlinks : (Machine.postAccess a s).links =
      s.links.set a.port { s.links.get a.port with work := some { w with posted := true } } := by
    unfold Machine.postAccess
    simp only [hwork]
    rfl
  have hports : (Machine.postAccess a s).arb.ports = s.arb.ports ++ [a] := rfl
  have hbusy : (Machine.postAccess a s).arb.busy = s.arb.busy := rfl
  have hself : waitsForStore (Machine.postAccess a s) a.port := by
    rw [waitsForStore, hlinks, PerPort.get_set_same]
    rfl
  have hsame : ∀ q, q ≠ a.port → (waitsForStore (Machine.postAccess a s) q ↔ waitsForStore s q) := fun q hq => by
    rw [waitsForStore, waitsForStore, hlinks, PerPort.get_set_ne _ _ hq]
  have hne : ∀ q, owesReply s.arb.busy q = true → q ≠ a.port := fun q hq hqa => by
    rw [hqa, hpaid] at hq
    cases hq
  refine ⟨fun q => ?_, fun x hx => ?_, ?_, fun q hq => ?_, fun q hq => ?_⟩
  · rw [hlinks, PerPort.get_set]
    split
    · obtain ⟨h1, h2, h3, h4, h5, h6, h7⟩ := hlink a.port
      exact ⟨h1.trans (by rw [hwork]; exact iff_of_true rfl rfl), h2, h3, h4, h5, h6, h7⟩
    · exact hlink q
  · rw [hports, List.mem_append, List.mem_singleton] at hx
    obtain hx | rfl := hx
    · obtain ⟨hxw, hxo⟩ := hwaiting x hx
      exact ⟨(hsame _ (hnone x hx)).2 hxw, hxo⟩
    · exact ⟨hself, hopen⟩
  · rw [hports, List.map_append, List.nodup_append]
    refine ⟨hone, List.nodup_singleton _, fun q hq q' hq' => ?_⟩
    obtain ⟨x, hx, rfl⟩ := List.mem_map.1 hq
    rw [List.map_singleton, List.mem_singleton] at hq'
    rw [hq']
    exact hnone x hx
  · rw [hbusy] at hq
    obtain ⟨hqw, hqn⟩ := hserved q hq
    refine ⟨(hsame q (hne q hq)).2 hqw, fun x hx => ?_⟩
    rw [hports, List.mem_append, List.mem_singleton] at hx
    obtain hx | rfl := hx
    · exact hqn x hx
    · exact (hne q hq).symm
  · rw [hports, hbusy]
    by_cases hqa : q = a.port
    · exact .inl ⟨a, List.mem_append_right _ (List.mem_singleton_self a), hqa.symm⟩
    · obtain ⟨x, hx, hxq⟩ | howes := hposted q ((hsame q hqa).1 hq)
      · exact .inl ⟨x, List.mem_append_left _ hx, hxq⟩
      · exact .inr howes

/-- The access in service completes and its request is answered (R64, R65). -/
theorem LinkLaw.complete (h : LinkLaw s) {p : Port} {st : Status} {payload : List Byte}
    (hbusy : s.arb.busy = some (.portAccess p st payload true)) : LinkLaw (fillReply p st payload (freeStore s)) := by
  have howes : ∀ q, owesReply s.arb.busy q = decide (p = q) := fun q => by
    rw [hbusy]
    rfl
  obtain ⟨hwait, hnone⟩ := h.served p (by rw [howes]; simp)
  obtain ⟨hrst, hexec⟩ := (h.link p).of_waits hwait
  obtain ⟨r, hlinks⟩ : ∃ r, (fillReply p st payload (freeStore s)).links =
      s.links.set p { s.links.get p with state := .replyReady, slot := some r, overrun := false, work := none } := ⟨_, rfl⟩
  refine h.release (p := p) (fun q hq => PerPort.get_set_ne _ _ hq) ?_ ?_ (filter_ports_of_none hnone).symm (fun q hq => ?_) rfl rfl
  · rw [hlinks, PerPort.get_set_same]
    exact (h.link p).replied hrst (.inl (by rw [hexec]; decide)) _
  · rw [hlinks, PerPort.get_set_same]
    exact not_waits_of_none rfl
  · rw [howes, decide_eq_false (Ne.symm hq)]
    rfl

theorem Move.linkLaw {D : Port → Prop} (h : Move D s t) (hs : LinkLaw s) : LinkLaw t := by
  cases h
  case quiet h =>
    obtain ⟨hframe, howed⟩ := h
    exact hs.congr (by rw [hframe]) (by rw [hframe]) howed fun a _ ha => (openAt_congr (by rw [hframe]) a.port).2 ha
  case panel h =>
    have hframe := h.frame
    exact hs.congr (by rw [hframe]) (by rw [hframe]) (fun p => by rw [hframe]) fun a _ ha => (openAt_congr (by rw [hframe]) a.port).2 ha
  case stop =>
    have hpass := stopPass_frame s
    have hframe := takeTimingStopped_frame s
    refine hs.congr ?_ (by rw [hframe]) (fun p => by rw [hframe]) fun a _ ha => ?_
    · rw [hframe, hpass]
      rfl
    · exact (Move.open_kept (D := fun _ => False) .stop ha).resolve_right id
  case pass hphase =>
    refine hs.congr ?_ ?_ ?_ fun a _ ha => (Move.open_kept (D := fun _ => False) (.pass hphase) ha).resolve_right id
    all_goals
      rw [applicationPass, applyEntries_frame]
      intros
      rfl
  case sessions v _ hv =>
    refine hs.congr rfl rfl (fun _ => rfl) fun a ha hopen => ?_
    exact (hv a.port hopen).resolve_right fun ⟨_, hnone⟩ => hnone a ha rfl
  case link p l hl =>
    obtain ⟨hok, hwaits⟩ := hl (hs.link p)
    exact hs.setLink hok hwaits
  case resetIdle p l hidle =>
    have hnone : ∀ a ∈ s.arb.ports, a.port ≠ p := fun a ha hp => hidle (by rw [← hp]; exact (hs.waiting a ha).2)
    refine hs.reset (p := p) (l := l) rfl rfl ?_ (resetLink_sessions p l s)
    rw [filter_ports_of_none hnone, resetLink_frame]
    rfl
  case resetOpen p l =>
    refine hs.reset (p := p) (l := l) rfl rfl ?_ (resetLink_sessions p l s)
    rw [dropAccesses, resetLink_frame]
    rfl
  case discard a p => exact hs.discardAccess a p
  case access a hw hopen => exact hs.postAccess hw hopen
  case complete hbusy => exact hs.complete hbusy
  case flags flag hs' =>
    rw [setAbortFlags_frame]
    exact hs.congr rfl rfl (fun _ => rfl) fun _ _ ha => ha
  all_goals exact hs.congr rfl rfl (fun _ => rfl) fun _ _ ha => ha

/-- A grant takes the oldest access from the arbiter to the frame store (R68). -/
theorem Granted.linkLaw (h : Granted s t) (hs : LinkLaw s) : LinkLaw t := by
  cases h with
  | nothing => exact hs
  | lineFetch f hbusy _ _ => exact hs.congr rfl rfl (fun p => by rw [hbusy]; rfl) fun _ _ ha => ha
  | row j hbusy _ _ _ => exact hs.congr rfl rfl (fun p => by rw [hbusy]; rfl) fun _ _ ha => ha
  | port a rest hbusy _ hports _ =>
    obtain ⟨hlink, hwaiting, hone, hserved, hposted⟩ := hs
    rw [hports, List.map_cons, List.nodup_cons] at hone
    obtain ⟨hnew, hone⟩ := hone
    have hmem : ∀ x ∈ rest, x ∈ s.arb.ports := fun x hx => by
      rw [hports]
      exact List.mem_cons_of_mem _ hx
    have hself := hwaiting a (by rw [hports]; exact List.mem_cons_self)
    refine ⟨hlink, fun x hx => hwaiting x (hmem x hx), hone, fun p hp => ?_, fun p hp => ?_⟩
    · obtain rfl : a.port = p := by simpa [owesReply] using hp
      exact ⟨hself.1, fun x hx hxa => hnew (List.mem_map.2 ⟨x, hx, hxa⟩)⟩
    · obtain ⟨x, hx, hxp⟩ | howes := hposted p hp
      · rw [hports, List.mem_cons] at hx
        obtain rfl | hx := hx
        · exact .inr (by simp [owesReply, hxp])
        · exact .inl ⟨x, hx, hxp⟩
      · rw [hbusy] at howes
        cases howes

/-- The discards of DEVICE_RESET leave the link of a port that has no waiting access. -/
theorem discardAll_link {p : Port} (h : ∀ a ∈ s.arb.ports, a.port ≠ p) : (discardAll s).links.get p = s.links.get p := by
  have hone : ∀ (q : Port) (u : State), (∀ a ∈ u.arb.ports, a.port ≠ p) →
      (discardAccess false q u).links.get p = u.links.get p ∧ ∀ a ∈ (discardAccess false q u).arb.ports, a.port ≠ p := by
    intro q u hu
    refine ⟨?_, fun a ha => ?_⟩
    · by_cases hq : p = q
      · subst hq
        have hany : (u.arb.ports.any fun x => decide (x.port = p)) = false :=
          List.any_eq_false.2 fun x hx => by simpa using hu x hx
        unfold discardAccess
        simp only [hany, Bool.false_eq_true, if_false]
      · exact discardAccess_links_ne _ _ hq
    · rw [discardAccess_ports] at ha
      exact hu a (List.mem_filter.1 ha).1
  have hfold : ∀ (qs : List Port) (u : State), (∀ a ∈ u.arb.ports, a.port ≠ p) →
      (qs.foldl (fun t q => discardAccess false q t) u).links.get p = u.links.get p := by
    intro qs
    induction qs with
    | nil => exact fun _ _ => rfl
    | cons q qs ih =>
      intro u hu
      obtain ⟨hlink, hports⟩ := hone q u hu
      exact (ih _ hports).trans hlink
  exact hfold Port.all s h

theorem resetAll_links (s : State) : (resetAll s).links = (discardAll s).links := by
  have hclosed : ∀ u p, ¬OpenAt (resetSessions u) p := fun u p h => by
    rw [OpenAt, resetSessions, PerPort.get_map] at h
    cases h
  obtain ⟨d, hd⟩ : ∃ d, discardAll s = d := ⟨_, rfl⟩
  unfold resetAll
  rw [hd]
  obtain ⟨u, hu, hlinks⟩ : ∃ u, resetPalette (resetEngine (resetAllocator (resetLayout d))) = u ∧ u.links = d.links := ⟨_, rfl, rfl⟩
  rw [hu, (powerDeviceReset_panel (hclosed u)).frame]
  exact hlinks

end

/-- Settles O54: each block's move keeps the laws of the links; a session closes when its access has been discarded. -/
theorem linksStayInOrder : Obligations.LinksStayInOrder := by
  unfold Obligations.LinksStayInOrder
  intro s t hs h
  refine step_invariant (P := LinkLaw) (fun s rest hs => hs.congr rfl rfl (fun _ => rfl) fun _ _ ha => ha)
    (fun c s t hs h => ?_) hs h
  have hreply : ∀ {u : State} {p : Port} (st : Status) (pl : List Byte), LinkLaw u → InHand u p → LinkLaw (fillReply p st pl u) :=
    fun st pl hu hw => moves_keep (P := LinkLaw) (fun hm hu => hm.linkLaw hu) (fillReply_moves (D := fun _ => False) hw st pl) hu
  obtain ⟨v, k, pins, n, d, rfl⟩ | hg | ⟨D, hm, -⟩ | ⟨p, pl, hk, hidle, rfl⟩ | ⟨p, hk, rfl⟩ := exec_cases h
  · exact linkLaw_powerOn ..
  · exact hg.linkLaw hs
  · exact moves_keep (P := LinkLaw) (fun hm hu => hm.linkLaw hu) hm hs
  · rw [openSession_idle pl hidle]
    refine hreply _ _ (hs.congr rfl rfl (fun _ => rfl) fun a _ ha => ?_) (hk.hand.of_links rfl)
    change ((s.sessions.set p _).get a.port).state = .opened
    rw [PerPort.get_set]
    split
    · rfl
    · exact ha
  · have hall : LinkLaw (resetAll s) := moves_keep (P := LinkLaw) (fun hm hu => hm.linkLaw hu) (resetAll_moves s) hs
    obtain ⟨hnone, -⟩ := hs.none_of_not_waits hk.hand.not_waits
    refine hreply _ _ hall ?_
    rw [InHand, resetAll_links, discardAll_link hnone]
    exact hk.hand

end Sys2Proof.Machine
end


section
/-! PROOFS. Queued jobs cancelled one after another: what the layout controller and the port are told of them (R98, R101, R103). -/

namespace Sys2Proof.Machine

/-! ### Notices that stay (R179) -/

/-- Every notice of `s` that no later one overwrites is still in its queue in `t`, and no loss is forgotten. -/
def NoticesKept (s t : State) : Prop :=
  ∀ q, (∀ n, n.isFrame = false → n.isPower = false → n ∈ (s.notices.get q).queue → n ∈ (t.notices.get q).queue) ∧
    ((s.notices.get q).lost = true → (t.notices.get q).lost = true)

theorem NoticesKept.refl (s : State) : NoticesKept s s := fun _ => ⟨fun _ _ _ h => h, fun h => h⟩

theorem NoticesKept.trans {s t u : State} (h : NoticesKept s t) (h' : NoticesKept t u) : NoticesKept s u := fun q =>
  ⟨fun n hf hp hn => (h' q).1 n hf hp ((h q).1 n hf hp hn), fun hl => (h' q).2 ((h q).2 hl)⟩

theorem NoticesKept.of_eq {s t : State} (h : t.notices = s.notices) : NoticesKept s t := fun q => by
  rw [h]
  exact NoticesKept.refl s q

theorem NoticesKept.told {s t : State} (h : NoticesKept s t) {q : Port} {n : Notice} (hf : n.isFrame = false)
    (hp : n.isPower = false) (hn : Told (s.notices.get q) n) : Told (t.notices.get q) n :=
  hn.imp ((h q).1 n hf hp) (h q).2

theorem foldl_take_lost : ∀ (ns : List Notice) {nq : NoticeQueue}, nq.lost = true →
    (ns.foldl NoticeQueue.take nq).lost = true
  | [], _, h => h
  | m :: ns, nq, h => foldl_take_lost ns (nq := nq.take m) (take_lost m h)

theorem noticesKept_deliver (xs : List Posting) (s : State) : NoticesKept s (deliver xs s) := fun q => by
  rw [deliver_notices_get]
  split
  · exact ⟨fun n hf hp hn => mem_foldl_take hn fun _ _ => not_overwrites_of_kinds hf hp, fun h => foldl_take_lost _ h⟩
  · exact NoticesKept.refl s q

theorem noticesKept_post (x : Posting) (s : State) : NoticesKept s (post x s) := noticesKept_deliver [x] s

theorem noticesKept_applyIfStopped (s : State) : NoticesKept s (applyIfStopped s) := by
  unfold applyIfStopped
  split
  · refine NoticesKept.trans (NoticesKept.of_eq ?_) (noticesKept_deliver (applicationPass s).2 (applicationPass s).1)
    rw [applicationPass, applyEntries_frame]
    rfl
  · exact NoticesKept.refl s

theorem noticesKept_jobFinished (p : Port) (n : BitVec 16) (s : State) : NoticesKept s (jobFinished p n s) := by
  have hset : NoticesKept s (s.setQueue (s.layout.queue.map (QueueEntry.dropAwaited p n))) := NoticesKept.of_eq rfl
  exact hset.trans (noticesKept_applyIfStopped _)

theorem noticesKept_cancelJob (j : Job) (s : State) : NoticesKept s (cancelJob j s) := by
  have hset : NoticesKept s (s.setJobs (removeJob j s.engine.jobs)) := NoticesKept.of_eq rfl
  rw [cancelJob]
  exact (hset.trans (noticesKept_post _ _)).trans (noticesKept_jobFinished _ _ _)

/-- An application that has been told stays told. -/
theorem AppliedAs.after {s t t' : State} {p : Port} {tag : Byte} {edits : List Edit} {frame : BitVec 16}
    (h : AppliedAs s p tag edits frame t) (ht : TablesLeft t t') (hnotices : NoticesKept t t') :
    AppliedAs s p tag edits frame t' := by
  obtain ⟨⟨htactive, htrecord⟩, htpal, htfresh, htpending⟩ := ht
  have hkept : LayoutKept s t → LayoutKept s t' := fun ⟨ha, hp, hl, hf⟩ =>
    ⟨htactive.trans ha, htpending.trans hp, htpal.trans hl, htfresh.trans hf⟩
  constructor
  case record => exact htrecord.trans h.record
  case noBand =>
    intro k hk
    obtain ⟨hk1, hk2⟩ := h.noBand k hk
    exact ⟨hkept hk1, (hnotices p).1 _ rfl rfl hk2⟩
  case failed =>
    intro v r k hv hr
    obtain ⟨hk1, hk2⟩ := h.failed v r k hv hr
    exact ⟨hkept hk1, (hnotices p).1 _ rfl rfl hk2⟩
  case accepted =>
    intro v hv hr
    obtain ⟨hlayout, htiming, hpublished, hdraft, hrecords, hkeys, hfreshes, hstale, hcommitted, hevicted⟩ :=
      h.accepted v hv hr
    exact ⟨htactive.trans hlayout, htpending.trans htiming, by rw [htpal]; exact hpublished, by rw [htpal, hdraft],
      by rw [htpal, hrecords], by rw [htfresh, hkeys], by rw [htfresh]; exact hfreshes, by rw [htfresh, hstale],
      (hnotices p).1 _ rfl rfl hcommitted,
      fun k hk hgone hopen => hnotices.told (n := .evicted k) rfl rfl (hevicted k hk hgone hopen)⟩

/-! ### Awaited sets (R103) -/

/-- An entry after the jobs with the given arrival numbers have left its port's awaited set. -/
def QueueEntry.dropAll (p : Port) (gone : List (BitVec 16)) : QueueEntry → QueueEntry
  | .transaction x =>
    .transaction { x with awaited := if x.port = p then x.awaited.filter fun n => decide (n ∉ gone) else x.awaited }
  | .withdrawal q => .withdrawal q

theorem dropAll_nil (p : Port) (e : QueueEntry) : e.dropAll p [] = e := by
  cases e with
  | transaction x => simp [QueueEntry.dropAll]
  | withdrawal q => rfl

/-- One job leaves the awaited sets, then the others. -/
theorem dropAll_dropAwaited (p : Port) (n : BitVec 16) (ns : List (BitVec 16)) (e : QueueEntry) :
    (e.dropAwaited p n).dropAll p ns = e.dropAll p (n :: ns) := by
  cases e with
  | withdrawal q => rfl
  | transaction x =>
    simp only [QueueEntry.dropAwaited, QueueEntry.dropAll]
    by_cases hport : x.port = p
    · simp [hport, List.filter_filter, Bool.and_comm]
    · simp [hport]

theorem map_dropAll_dropAwaited (p : Port) (n : BitVec 16) (ns : List (BitVec 16)) (q : List QueueEntry) :
    (q.map (QueueEntry.dropAwaited p n)).map (QueueEntry.dropAll p ns) = q.map (QueueEntry.dropAll p (n :: ns)) := by
  rw [List.map_map]
  exact List.map_congr_left fun e _ => dropAll_dropAwaited p n ns e

theorem dropAll_of_ne {p : Port} {ns : List (BitVec 16)} {e : QueueEntry} (h : e.port ≠ p) : e.dropAll p ns = e := by
  cases e with
  | withdrawal q => rfl
  | transaction x =>
    have h : x.port ≠ p := h
    simp [QueueEntry.dropAll, h]

theorem dropAll_of_not_held {p : Port} {ns : List (BitVec 16)} {e : QueueEntry} (h : e.held = false) : e.dropAll p ns = e := by
  cases e with
  | withdrawal q => rfl
  | transaction x =>
    have hnone : x.awaited = [] := by simpa [QueueEntry.held] using h
    have hawaited : (if x.port = p then x.awaited.filter fun n => decide (n ∉ ns) else x.awaited) = x.awaited := by simp [hnone]
    rw [QueueEntry.dropAll, hawaited]

/-- An entry that is held when every job has left was held before. -/
theorem held_of_dropAll {p : Port} {ns : List (BitVec 16)} {e : QueueEntry} (h : (e.dropAll p ns).held = true) :
    e.held = true := by
  by_contra hnot
  have hnot : e.held = false := Bool.eq_false_iff.2 hnot
  rw [dropAll_of_not_held hnot, hnot] at h
  cases h

theorem held_of_map_dropAll {p : Port} {ns : List (BitVec 16)} {q : List QueueEntry}
    (h : ∀ e ∈ q.map (QueueEntry.dropAll p ns), e.held = true) : ∀ e ∈ q, e.held = true := fun _ he =>
  held_of_dropAll (h _ (List.mem_map_of_mem he))

/-! ### The jobs that leave (R89) -/

/-- The jobs left when some of them are removed one after another. -/
def withoutJobs (js : List Job) (jobs : List Job) : List Job := js.foldl (fun l j => removeJob j l) jobs

theorem removeJob_eq_filter {j : Job} : ∀ {jobs : List Job}, jobs.Nodup → removeJob j jobs = jobs.filter fun k => decide (k ≠ j)
  | [], _ => rfl
  | k :: jobs, h => by
    obtain ⟨hk, hrest⟩ := List.nodup_cons.1 h
    rw [removeJob]
    split
    case isTrue heq =>
      subst heq
      have hall : jobs.filter (fun x => decide (x ≠ k)) = jobs :=
        List.filter_eq_self.2 fun x hx => decide_eq_true fun heq => hk (heq ▸ hx)
      simpa using hall.symm
    case isFalse hne => rw [removeJob_eq_filter hrest, List.filter_cons_of_pos (by simpa using hne)]

theorem withoutJobs_eq_filter : ∀ {js : List Job} {jobs : List Job}, jobs.Nodup →
    withoutJobs js jobs = jobs.filter fun k => decide (k ∉ js)
  | [], jobs, _ => by simp [withoutJobs]
  | j :: js, jobs, h => by
    have hone : withoutJobs (j :: js) jobs = withoutJobs js (removeJob j jobs) := rfl
    rw [hone, removeJob_eq_filter h, withoutJobs_eq_filter (h.filter _), List.filter_filter]
    refine List.filter_congr fun k _ => ?_
    simp only [List.mem_cons, not_or, ← Bool.decide_and]
    exact decide_eq_decide.2 and_comm

/-- When the jobs that satisfy a condition are removed, those that do not stay. -/
theorem withoutJobs_filter {jobs : List Job} (h : jobs.Nodup) (f : Job → Bool) :
    withoutJobs (jobs.filter f) jobs = jobs.filter fun k => !f k := by
  rw [withoutJobs_eq_filter h]
  refine List.filter_congr fun k hk => ?_
  cases hf : f k <;> simp [hk, hf]

theorem EngineLaw.jobs_nodup {s : State} (h : EngineLaw s) : s.engine.jobs.Nodup := h.tags.of_map _

/-! ### What every cancellation leaves alone (R98, R101) -/

theorem jobFinished_queue_mem {p : Port} {n : BitVec 16} {s : State} {e : QueueEntry}
    (he : e ∈ (jobFinished p n s).layout.queue) : ∃ e0 ∈ s.layout.queue, e = e0.dropAwaited p n := by
  have hmem : e ∈ s.layout.queue.map (QueueEntry.dropAwaited p n) := by
    unfold jobFinished applyIfStopped at he
    split at he
    · dsimp only at he
      rw [deliver_layout, applicationPass_queue] at he
      exact (List.mem_filter.1 he).1
    · exact he
  obtain ⟨e0, he0, rfl⟩ := List.mem_map.1 hmem
  exact ⟨e0, he0, rfl⟩

/-- A state in which the job has left and its owner is told. -/
def jobLeft (j : Job) (s : State) : State := post (j.owner, .jobCancelled j.tag) (s.setJobs (removeJob j s.engine.jobs))

theorem cancelJob_eq (j : Job) (s : State) : cancelJob j s = jobFinished j.owner j.arrival (jobLeft j s) := rfl

theorem jobLeft_eq (j : Job) (s : State) :
    jobLeft j s =
      { s with engine := { s.engine with jobs := removeJob j s.engine.jobs }, notices := (jobLeft j s).notices } := by
  unfold jobLeft
  rw [post_frame]
  rfl

theorem jobLeft_of_open {j : Job} {s : State} (h : (s.sessions.get j.owner).state = .opened) :
    jobLeft j s =
      { s with
        engine := { s.engine with jobs := removeJob j s.engine.jobs }
        notices := s.notices.set j.owner ((s.notices.get j.owner).take (.jobCancelled j.tag)) } :=
  post_of_open (x := (j.owner, .jobCancelled j.tag)) (s := s.setJobs (removeJob j s.engine.jobs)) h

theorem cancelJob_frame {s : State} (h : NoWithdrawalStopped s) (j : Job) :
    cancelJob j s =
      { s with
        layout := (cancelJob j s).layout, timing := { s.timing with pending := (cancelJob j s).timing.pending }
        pal := (cancelJob j s).pal, fresh := (cancelJob j s).fresh, notices := (cancelJob j s).notices
        engine := { s.engine with jobs := removeJob j s.engine.jobs } } := by
  obtain ⟨halloc, hsessions⟩ := jobFinished_of_transactions (s := jobLeft j s) j.owner j.arrival (by rw [jobLeft_eq]; exact h)
  have hframe := jobFinished_frame j.owner j.arrival (jobLeft j s)
  rw [halloc, hsessions] at hframe
  have hleft := jobLeft_eq j s
  rw [cancelJob_eq]
  obtain ⟨t, ht⟩ : ∃ t, jobFinished j.owner j.arrival (jobLeft j s) = t := ⟨_, rfl⟩
  rw [ht] at hframe ⊢
  rw [hleft] at hframe
  exact hframe

theorem NoWithdrawalStopped.cancelJob {s : State} (h : NoWithdrawalStopped s) (j : Job) :
    NoWithdrawalStopped (Machine.cancelJob j s) := by
  intro hrun e he
  rw [cancelJob_eq] at he
  obtain ⟨e0, he0, rfl⟩ := jobFinished_queue_mem he
  rw [jobLeft_eq] at he0
  obtain ⟨x, rfl⟩ := h (by rwa [cancelJob_frame h] at hrun) e0 he0
  exact ⟨_, rfl⟩

/-- Cancelled jobs leave the engine, and what an application changes is all else that their cancellation changes. -/
theorem cancelJobs_frame : ∀ {js : List Job} {s : State}, NoWithdrawalStopped s →
    js.foldl (fun t j => cancelJob j t) s =
      { s with
        layout := (js.foldl (fun t j => cancelJob j t) s).layout
        timing := { s.timing with pending := (js.foldl (fun t j => cancelJob j t) s).timing.pending }
        pal := (js.foldl (fun t j => cancelJob j t) s).pal, fresh := (js.foldl (fun t j => cancelJob j t) s).fresh
        notices := (js.foldl (fun t j => cancelJob j t) s).notices
        engine := { s.engine with jobs := withoutJobs js s.engine.jobs } }
  | [], _, _ => rfl
  | j :: js, s, h => by
    have hone := cancelJob_frame h j
    have hrest := cancelJobs_frame (js := js) (h.cancelJob j)
    rw [List.foldl_cons]
    obtain ⟨t, ht⟩ : ∃ t, js.foldl (fun t j => cancelJob j t) (cancelJob j s) = t := ⟨_, rfl⟩
    rw [ht] at hrest ⊢
    rw [hone] at hrest
    exact hrest

theorem noticesKept_cancelJobs : ∀ (js : List Job) (s : State), NoticesKept s (js.foldl (fun t j => cancelJob j t) s)
  | [], s => NoticesKept.refl s
  | j :: js, s => (noticesKept_cancelJob j s).trans (noticesKept_cancelJobs js (cancelJob j s))

/-- The owner is told of each job that was cancelled (R101). -/
theorem cancelJobs_told {p : Port} {j : Job} {js : List Job} (hj : j ∈ js) (howner : j.owner = p) : ∀ {s : State},
    NoWithdrawalStopped s → (s.sessions.get p).state = .opened →
    Told ((js.foldl (fun t j => cancelJob j t) s).notices.get p) (.jobCancelled j.tag) := by
  induction js with
  | nil => cases hj
  | cons k js ih =>
    intro s h hopen
    rw [List.foldl_cons]
    obtain heq | hj := List.mem_cons.1 hj
    · subst heq
      have hleft : Told ((jobLeft j s).notices.get p) (.jobCancelled j.tag) := by
        rw [jobLeft_of_open (by rw [howner]; exact hopen), howner, PerPort.get_set_same]
        exact told_take_self _ _
      have hfinished : Told ((cancelJob j s).notices.get p) (.jobCancelled j.tag) :=
        (noticesKept_jobFinished j.owner j.arrival (jobLeft j s)).told rfl rfl hleft
      exact (noticesKept_cancelJobs js _).told rfl rfl hfinished
    · exact ih hj (h.cancelJob k) (by rw [cancelJob_frame h]; exact hopen)

/-! ### While every entry is still held (R30) -/

/-- The state in which jobs of one port have left, the port is told of them, and the awaited sets have lost them. -/
def cancelledJobs (p : Port) (js : List Job) (s : State) : State :=
  { s with
    engine := { s.engine with jobs := withoutJobs js s.engine.jobs }
    layout := { s.layout with queue := s.layout.queue.map (QueueEntry.dropAll p (js.map Job.arrival)) }
    notices := s.notices.set p ((js.map fun j => .jobCancelled j.tag).foldl NoticeQueue.take (s.notices.get p)) }

theorem cancelledJobs_nil (p : Port) (s : State) : cancelledJobs p [] s = s := by
  have hqueue : s.layout.queue.map (QueueEntry.dropAll p []) = s.layout.queue :=
    (List.map_congr_left fun e _ => dropAll_nil p e).trans (List.map_id _)
  simp only [cancelledJobs, List.map_nil, hqueue, List.foldl_nil, PerPort.set_get]
  rfl

theorem cancelledJobs_cons (p : Port) (j : Job) (js : List Job) (s : State) :
    cancelledJobs p js (cancelledJobs p [j] s) = cancelledJobs p (j :: js) s := by
  have hqueue : (s.layout.queue.map (QueueEntry.dropAll p [j.arrival])).map (QueueEntry.dropAll p (js.map Job.arrival)) =
      s.layout.queue.map (QueueEntry.dropAll p ((j :: js).map Job.arrival)) := by
    rw [← map_dropAll_dropAwaited p j.arrival [], List.map_cons, ← map_dropAll_dropAwaited]
    exact congrArg _ ((List.map_congr_left fun e _ => dropAll_nil p e).trans (List.map_id _))
  simp only [cancelledJobs, List.map_cons, List.map_nil, hqueue, PerPort.get_set_same, PerPort.set_set]
  rfl

theorem cancelJob_waits {p : Port} {j : Job} {s : State} (howner : j.owner = p) (hopen : (s.sessions.get p).state = .opened)
    (hwaits : s.timing.run = .running ∨ ∀ e ∈ s.layout.queue.map (QueueEntry.dropAll p [j.arrival]), e.held = true) :
    cancelJob j s = cancelledJobs p [j] s := by
  have hqueue : s.layout.queue.map (QueueEntry.dropAwaited p j.arrival) =
      s.layout.queue.map (QueueEntry.dropAll p ([j].map Job.arrival)) := by
    rw [List.map_cons, ← map_dropAll_dropAwaited]
    exact ((List.map_congr_left fun e _ => dropAll_nil p e).trans (List.map_id _)).symm
  rw [cancelJob_eq, jobLeft_of_open (by rw [howner]; exact hopen), jobFinished, howner]
  obtain hrun | hheld := hwaits
  · rw [applyIfStopped_running (by exact hrun), cancelledJobs, ← hqueue]
    rfl
  · have hqueued : ∀ e ∈ s.layout.queue.map (QueueEntry.dropAwaited p j.arrival), e.held = true := by
      rw [hqueue]
      exact hheld
    rw [applyIfStopped_of_held (by exact hqueued), cancelledJobs, ← hqueue]
    rfl

/-- While timing runs, and while every entry stays held, a cancellation changes awaited sets alone (R30). -/
theorem cancelJobs_waits {p : Port} : ∀ {js : List Job} {s : State}, (∀ j ∈ js, j.owner = p) →
    (s.sessions.get p).state = .opened →
    (s.timing.run = .running ∨ ∀ e ∈ s.layout.queue.map (QueueEntry.dropAll p (js.map Job.arrival)), e.held = true) →
    js.foldl (fun t j => cancelJob j t) s = cancelledJobs p js s
  | [], s, _, _, _ => (cancelledJobs_nil p s).symm
  | j :: js, s, howners, hopen, hwaits => by
    have hsplit : (s.layout.queue.map (QueueEntry.dropAll p [j.arrival])).map (QueueEntry.dropAll p (js.map Job.arrival)) =
        s.layout.queue.map (QueueEntry.dropAll p ((j :: js).map Job.arrival)) :=
      congrArg (fun t : State => t.layout.queue) (cancelledJobs_cons p j js s)
    rw [← hsplit] at hwaits
    rw [List.foldl_cons, cancelJob_waits (howners j (List.mem_cons_self ..)) hopen (hwaits.imp_right held_of_map_dropAll),
      ← cancelledJobs_cons p j js]
    exact cancelJobs_waits (s := cancelledJobs p [j] s) (fun k hk => howners k (List.mem_cons_of_mem _ hk)) hopen hwaits

/-! ### While timing is stopped (R45) -/

/-- The submit queue of a lawful state whose timing is stopped. -/
structure StoppedQueue (s : State) : Prop where
  stopped : s.timing.run = .stopped
  held : ∀ e ∈ s.layout.queue, e.held = true
  onePerPort : (s.layout.queue.map QueueEntry.port).Nodup
  opened : ∀ x, .transaction x ∈ s.layout.queue → (s.sessions.get x.port).state = .opened
  mark : ∀ q, (s.pal.records.get q).unpublished = true → (s.pal.records.get q).grant ≠ none

theorem Lawful.stoppedQueue {s : State} (hs : Lawful s) (hrun : s.timing.run = .stopped) : StoppedQueue s :=
  ⟨hrun, hs.queue.stopped hrun, hs.queue.onePerPort, fun _ hx => (hs.queue.entry _ hx).1, hs.mark_grant⟩

@[simp] theorem dropAll_port (p : Port) (ns : List (BitVec 16)) (e : QueueEntry) : (e.dropAll p ns).port = e.port := by
  cases e <;> rfl

theorem mem_map_dropAll {p : Port} {ns : List (BitVec 16)} {q : List QueueEntry} {x : Transaction}
    (hx : QueueEntry.transaction x ∈ q.map (QueueEntry.dropAll p ns)) : ∃ y, .transaction y ∈ q ∧ y.port = x.port := by
  obtain ⟨e, he, heq⟩ := List.mem_map.1 hx
  cases e with
  | withdrawal r => cases heq
  | transaction y =>
    cases heq
    exact ⟨y, he, rfl⟩

theorem StoppedQueue.cancelledJobs {s : State} (h : StoppedQueue s) {p : Port} {js : List Job}
    (hheld : ∀ e ∈ s.layout.queue.map (QueueEntry.dropAll p (js.map Job.arrival)), e.held = true) :
    StoppedQueue (Machine.cancelledJobs p js s) := by
  refine ⟨h.stopped, hheld, ?_, fun x hx => ?_, h.mark⟩
  · have hports : (s.layout.queue.map (QueueEntry.dropAll p (js.map Job.arrival))).map QueueEntry.port =
        s.layout.queue.map QueueEntry.port := by
      rw [List.map_map]
      exact List.map_congr_left fun e _ => dropAll_port p _ e
    exact hports ▸ h.onePerPort
  · obtain ⟨y, hy, hport⟩ := mem_map_dropAll hx
    exact hport ▸ h.opened y hy

/-- The entry that a finished job of port p set free is p's, and the entries about it are those of other ports. -/
theorem StoppedQueue.port_of_freed {s : State} (h : StoppedQueue s) {p : Port} {ns : List (BitVec 16)} {x : Transaction}
    {ahead behind : List QueueEntry}
    (hsplit : s.layout.queue.map (QueueEntry.dropAll p ns) = ahead ++ .transaction x :: behind) (hawaited : x.awaited = []) :
    x.port = p ∧ ∀ e ∈ ahead ++ behind, e.port ≠ p := by
  have hport : x.port = p := by
    by_contra hne
    have hx : QueueEntry.transaction x ∈ s.layout.queue.map (QueueEntry.dropAll p ns) := by rw [hsplit]; simp
    obtain ⟨e, he, heq⟩ := List.mem_map.1 hx
    have hep : e.port ≠ p := by
      rw [← dropAll_port p ns e, heq]
      exact hne
    rw [dropAll_of_ne hep] at heq
    have hheld := h.held e he
    rw [heq, held_of_awaited_nil hawaited] at hheld
    cases hheld
  refine ⟨hport, fun e he heq => ?_⟩
  have hports : (s.layout.queue.map (QueueEntry.dropAll p ns)).map QueueEntry.port = s.layout.queue.map QueueEntry.port := by
    rw [List.map_map]
    exact List.map_congr_left fun e _ => dropAll_port p _ e
  have hnodup := h.onePerPort
  rw [← hports, hsplit, List.map_append, List.map_cons, List.nodup_middle, List.nodup_cons, ← List.map_append] at hnodup
  exact hnodup.1 (List.mem_map.2 ⟨e, he, heq.trans hport.symm⟩)

/-- An entry set free by the first of some jobs is the one that they all set free. -/
theorem StoppedQueue.map_dropAll_eq {s : State} (h : StoppedQueue s) {p : Port} {n : BitVec 16} {ns : List (BitVec 16)}
    (hfreed : ¬∀ e ∈ s.layout.queue.map (QueueEntry.dropAll p [n]), e.held = true) :
    s.layout.queue.map (QueueEntry.dropAll p (n :: ns)) = s.layout.queue.map (QueueEntry.dropAll p [n]) := by
  push Not at hfreed
  obtain ⟨f, hf, hfree⟩ := hfreed
  have hfree : f.held = false := Bool.eq_false_iff.2 hfree
  obtain ⟨f0, hf0, rfl⟩ := List.mem_map.1 hf
  have hone : ∀ e : QueueEntry, e.dropAwaited p n = e.dropAll p [n] := fun e => by rw [← dropAll_dropAwaited, dropAll_nil]
  have hport : f0.port = p := by
    by_contra hne
    rw [dropAll_of_ne hne, h.held f0 hf0] at hfree
    cases hfree
  refine List.map_congr_left fun e he => ?_
  by_cases hep : e.port = p
  · obtain rfl : e = f0 := List.inj_on_of_nodup_map h.onePerPort he hf0 (hep.trans hport.symm)
    rw [← dropAll_dropAwaited, hone, dropAll_of_not_held hfree]
  · rw [dropAll_of_ne hep, dropAll_of_ne hep]

/-- While timing is stopped, the entry that the cancellations set free is applied at the first that does (R45). -/
theorem cancelJobs_applied {p : Port} {x : Transaction} {ahead behind : List QueueEntry} (hawaited : x.awaited = [])
    (hheld : ∀ e ∈ ahead ++ behind, e.held = true) : ∀ {js : List Job} {s : State}, StoppedQueue s → (∀ j ∈ js, j.owner = p) →
    (s.sessions.get p).state = .opened →
    s.layout.queue.map (QueueEntry.dropAll p (js.map Job.arrival)) = ahead ++ .transaction x :: behind →
    AppliedAs s x.port x.tag x.edits s.timing.frameNumber (js.foldl (fun t j => cancelJob j t) s) ∧
      (js.foldl (fun t j => cancelJob j t) s).layout.queue = ahead ++ behind
  | [], s, h, _, _, hsplit => by
    have hx : QueueEntry.transaction x ∈ s.layout.queue := by
      rw [← (List.map_congr_left fun e _ => dropAll_nil p e).trans (List.map_id s.layout.queue)]
      exact (by rw [hsplit]; simp : QueueEntry.transaction x ∈ s.layout.queue.map (QueueEntry.dropAll p ([].map Job.arrival)))
    have := h.held _ hx
    rw [held_of_awaited_nil hawaited] at this
    cases this
  | j :: js, s, h, howners, hopen, hsplit => by
    have howner : j.owner = p := howners j (List.mem_cons_self ..)
    have hrest : ∀ k ∈ js, k.owner = p := fun k hk => howners k (List.mem_cons_of_mem _ hk)
    rw [List.foldl_cons]
    by_cases hone : ∀ e ∈ s.layout.queue.map (QueueEntry.dropAll p [j.arrival]), e.held = true
    case pos =>
      rw [cancelJob_waits howner hopen (.inr hone)]
      have hqueue : (cancelledJobs p [j] s).layout.queue.map (QueueEntry.dropAll p (js.map Job.arrival)) =
          ahead ++ .transaction x :: behind :=
        (congrArg (fun t : State => t.layout.queue) (cancelledJobs_cons p j js s)).trans hsplit
      obtain ⟨happlied, hleft⟩ := cancelJobs_applied hawaited hheld (js := js) (s := cancelledJobs p [j] s)
        (h.cancelledJobs hone) hrest hopen hqueue
      exact ⟨happlied.congr rfl rfl rfl rfl rfl rfl (fun _ hq => hq) (TablesLeft.refl _) rfl, hleft⟩
    case neg =>
      rw [List.map_cons, h.map_dropAll_eq hone] at hsplit
      obtain ⟨-, hothers⟩ := h.port_of_freed hsplit hawaited
      have htold : toldQueue (jobLeft j s) j = ahead ++ .transaction x :: behind := by
        rw [← map_dropAwaited_eq_toldQueue, howner, jobLeft_eq, ← hsplit]
        exact List.map_congr_left fun e _ => by rw [← dropAll_dropAwaited, dropAll_nil]
      have hreport : JobReported (jobLeft j s) j (cancelJob j s) := by
        refine jobReported_jobFinished (fun y hy => ?_) (by rw [jobLeft_eq]; exact h.mark)
        obtain ⟨z, hz, hport⟩ := mem_toldQueue_transaction hy
        rw [jobLeft_eq] at hz ⊢
        exact hport ▸ h.opened z hz
      have hstopped : (jobLeft j s).timing.run = .stopped := by
        rw [jobLeft_eq]
        exact h.stopped
      obtain ⟨happlied, -, hqueue⟩ := hreport.applied hstopped x ahead behind htold hawaited hheld
      have hsame : (ahead ++ behind).map (QueueEntry.dropAll p (js.map Job.arrival)) = ahead ++ behind :=
        (List.map_congr_left fun e he => dropAll_of_ne (hothers e he)).trans (List.map_id _)
      have hnone : NoWithdrawalStopped s := fun _ e he => by
        cases e with
        | transaction y => exact ⟨y, rfl⟩
        | withdrawal q => cases h.held _ he
      have hlater : js.foldl (fun t j => cancelJob j t) (cancelJob j s) = cancelledJobs p js (cancelJob j s) := by
        refine cancelJobs_waits hrest (by rw [cancelJob_frame hnone]; exact hopen) (.inr ?_)
        rw [hqueue, hsame]
        exact hheld
      have htables : TablesLeft (cancelJob j s) (js.foldl (fun t j => cancelJob j t) (cancelJob j s)) := by
        rw [hlater]
        exact ⟨⟨rfl, rfl⟩, rfl, rfl, rfl⟩
      have hafter := happlied.after htables (noticesKept_cancelJobs js (cancelJob j s))
      rw [jobLeft_eq] at hafter
      refine ⟨hafter.congr rfl rfl rfl rfl rfl rfl (fun _ hq => hq) (TablesLeft.refl _) rfl, ?_⟩
      rw [hlater]
      exact (congrArg (List.map _) hqueue).trans hsame

end Sys2Proof.Machine
end


section
/-! PROOFS. SURF_FREE: the refusals, and what becomes of a surface that is released (R58, R59, R101). -/

namespace Sys2Proof.Machine

/-! ### What a band, an edit and a job name (R58, R59) -/

theorem names_iff {part : BandPart} {h : Handle} : part.names h = true ↔ ∃ x y, part = .surface h x y := by
  cases part with
  | fill v => simp [BandPart.names]
  | surface g x y => simp [BandPart.names]

theorem shownSurface_iff {s : State} {h : Handle} :
    shownSurface s h = true ↔ ∃ b ∈ s.layout.active.bands, ∃ x y, b.part = .surface h x y := by
  simp only [shownSurface, List.any_eq_true, names_iff]

/-- An edit names a handle: it puts a band that shows the surface, or gives a band the surface (R58). -/
theorem edit_names_iff {d : Edit} {h : Handle} :
    d.names h = true ↔ (∃ n, d = .bandSurface n h) ∨ ∃ b x y, d = .bandPut b ∧ b.part = .surface h x y := by
  cases d with
  | bandPut b => simp [Edit.names, names_iff]
  | bandSurface n g => simp [Edit.names]
  | bandDrop | bandView | setTiming | setRegion | setBackground | setStaleColour | evictBand => simp [Edit.names]

theorem submittedSurface_sound {s : State} {p : Port} {h : Handle} (hsub : submittedSurface s p h = true) :
    ∃ t, .transaction t ∈ s.layout.queue ∧ t.port = p ∧
      ∃ d ∈ t.edits, (∃ n, d = .bandSurface n h) ∨ ∃ b x y, d = .bandPut b ∧ b.part = .surface h x y := by
  unfold submittedSurface at hsub
  split at hsub
  case h_1 t ht =>
    obtain ⟨hmem, hport⟩ := findTransaction_some ht
    obtain ⟨d, hd, hnames⟩ := List.any_eq_true.1 hsub
    exact ⟨t, hmem, hport, d, hd, edit_names_iff.1 hnames⟩
  case h_2 => cases hsub

/-- In a queue with one entry of each port, the entry of a port is the one found. -/
theorem findTransaction_of_mem {q : List QueueEntry} {t : Transaction} (hnodup : (q.map QueueEntry.port).Nodup)
    (ht : .transaction t ∈ q) : findTransaction t.port q = some t := by
  obtain ⟨ahead, behind, rfl⟩ := List.append_of_mem ht
  refine findTransaction_of_split fun e he hport => ?_
  rw [List.map_append, List.map_cons, List.nodup_middle, List.nodup_cons] at hnodup
  refine hnodup.1 (List.mem_append_left _ (List.mem_map.2 ⟨e, he, hport⟩))

/-- A job that names a surface is of the port that owns it (R90). -/
theorem JobOk.owner_of_names {s : State} {j : Job} (hj : JobOk s j) {h : Handle} (hmem : h ∈ j.handles) :
    j.owner = (s.alloc.table.get h.index).owner := by
  obtain ⟨x, y, e, he, howner, -⟩ := hj.surface hmem
  obtain ⟨rfl, -⟩ := namedSurface_eq_some.1 he
  exact howner.symm

/-! ### The release of a surface (R59, R101) -/

/-- A surface that waits for a job's end. -/
def retireSurface (i : Fin 32) (s : State) : State := s.setEntry i { s.alloc.table.get i with state := .retiring }

theorem retireSurface_get (i k : Fin 32) (s : State) :
    (retireSurface i s).alloc.table.get k =
      { s.alloc.table.get k with state := if k = i then .retiring else (s.alloc.table.get k).state } := by
  refine (vector_get_set _ i k _).trans ?_
  split
  case isTrue h => rw [h]
  case isFalse => rfl

theorem freeSurface_alloc {i : Fin 32} {s : State} {p : Port} (h : (s.alloc.table.get i).owner = p) :
    (freeSurface i s).alloc =
      { s.alloc with
        table := s.alloc.table.set i.val { s.alloc.table.get i with state := .free } i.isLt
        free :=
          releaseRun { start := (s.alloc.table.get i).firstBlock, length := (s.alloc.table.get i).blockCount } s.alloc.free
        charge := s.alloc.charge.set p (s.alloc.charge.get p - (s.alloc.table.get i).blockCount) } := by
  subst h
  rfl

/-- The state in which the queued jobs that name the surface have been cancelled. -/
def namersCancelled (h : Handle) (s : State) : State := (queuedNaming s h).foldl (fun t j => cancelJob j t) s

theorem releaseSurface_free {p : Port} {h : Handle} {s : State}
    (hnone : (runningJob (namersCancelled h s).engine.jobs).filter (fun j => j.names h) = none) :
    releaseSurface p h s =
      Replied (freeSurface h.index (namersCancelled h s)) p .ok [0#8, BitVec.ofNat 8 (queuedNaming s h).length] := by
  unfold namersCancelled at *
  simp only [releaseSurface, hnone, fillReply_eq_replied]

theorem releaseSurface_abort {p : Port} {h : Handle} {s : State} {j : Job}
    (hsome : (runningJob (namersCancelled h s).engine.jobs).filter (fun j => j.names h) = some j) :
    releaseSurface p h s =
      Replied (retireSurface h.index (beginAbort j (namersCancelled h s))) p .ok
        [1#8, BitVec.ofNat 8 (queuedNaming s h).length] := by
  unfold namersCancelled at *
  simp only [releaseSurface, hsome, fillReply_eq_replied, retireSurface]

theorem queuedNaming_eq_nil {s : State} {h : Handle} (hnone : ∀ j ∈ s.engine.jobs, j.state = .queued → h ∉ j.handles) :
    queuedNaming s h = [] := by
  refine List.filter_eq_nil_iff.2 fun j hj hboth => ?_
  obtain ⟨hqueued, hnames⟩ := Bool.and_eq_true _ _ ▸ hboth
  exact hnone j hj (of_decide_eq_true hqueued) (of_decide_eq_true hnames)

theorem namersCancelled_of_none {s : State} {h : Handle}
    (hnone : ∀ j ∈ s.engine.jobs, j.state = .queued → h ∉ j.handles) : namersCancelled h s = s := by
  rw [namersCancelled, queuedNaming_eq_nil hnone]
  rfl

/-- No running job names the surface. -/
theorem running_filter_none {jobs : List Job} {h : Handle} (hnone : ∀ j ∈ jobs, h ∉ j.handles) :
    (runningJob jobs).filter (fun j => j.names h) = none := by
  refine Option.filter_eq_none_iff.2 fun j hj => ?_
  have hmem : j ∈ jobs := List.mem_of_find?_eq_some hj
  simpa [Job.names] using hnone j hmem

theorem running_filter_head {j : Job} {rest : List Job} {h : Handle} (hstate : j.state ≠ .queued) (hnames : h ∈ j.handles) :
    (runningJob (j :: rest)).filter (fun j => j.names h) = some j := by
  rw [runningJob_head hstate]
  simp [Option.filter, Job.names, hnames]

/-- The begin of an abort flags the surfaces that the job names (R99); while the job is being aborted already, they are. -/
theorem beginAbort_flags {j : Job} {s : State}
    (h : j.state = .running ∨ j.state = .aborting ∧ ∀ i, NamedBy s j i → (s.alloc.table.get i).pendingAbort = true)
    (i : Fin 32) :
    (beginAbort j s).alloc.table.get i =
        { s.alloc.table.get i with pendingAbort := ((beginAbort j s).alloc.table.get i).pendingAbort } ∧
      (((beginAbort j s).alloc.table.get i).pendingAbort = true ↔
        ((s.alloc.table.get i).pendingAbort = true ∨ NamedBy s j i)) := by
  obtain hrunning | ⟨haborting, hflagged⟩ := h
  · rw [beginAbort_running hrunning]
    obtain ⟨hset, hkept⟩ := setAbortFlags_get true i j.handles
      (s.setJobs (replaceJob j { j with state := .aborting } s.engine.jobs))
    by_cases hnamed : NamedBy s j i
    · rw [hset hnamed]
      exact ⟨rfl, fun _ => .inr hnamed, fun _ => rfl⟩
    · rw [hkept hnamed]
      exact ⟨rfl, .inl, fun hor => hor.resolve_right hnamed⟩
  · have hsame : beginAbort j s = s := by simp only [beginAbort, haborting]
    rw [hsame]
    exact ⟨rfl, .inl, fun hor => hor.elim (fun hold => hold) (hflagged i)⟩

theorem beginAbort_alloc (j : Job) (s : State) :
    (beginAbort j s).alloc = { s.alloc with table := (beginAbort j s).alloc.table } := by
  unfold beginAbort
  split
  · exact setAbortFlags_alloc _ _ _
  · rfl
  · rfl

/-- In a lawful state the surfaces that an aborting job names carry the flag (R60). -/
theorem Lawful.flagged_of_aborting {s : State} (hs : Lawful s) {j : Job} (hj : j ∈ s.engine.jobs)
    (hstate : j.state = .aborting) {i : Fin 32} (hnamed : NamedBy s j i) : (s.alloc.table.get i).pendingAbort = true := by
  obtain ⟨hfree, g, hg, rfl, hgen⟩ := hnamed
  refine (hs.surface.entry g.index).flagged.2 ⟨hfree, List.any_eq_true.2 ⟨j, hj, ?_⟩⟩
  have hhandle : (⟨g.index, (s.alloc.table.get g.index).gen⟩ : Handle) ∈ j.handles := by
    rw [← hgen]
    exact hg
  simp [hstate, Job.names, hhandle]

/-- The jobs left when the queued ones that name a surface have been cancelled (R101). -/
def jobsStaying (s : State) (h : Handle) : List Job :=
  s.engine.jobs.filter fun j => !(decide (j.state = .queued) && decide (h ∈ j.handles))

/-- The jobs that stay: the oldest runs, and those behind it are queued and do not name the surface. -/
theorem Lawful.stays_cases {s : State} (hs : Lawful s) (h : Handle) :
    jobsStaying s h = [] ∨ ∃ j rest, jobsStaying s h = j :: rest ∧ j ∈ s.engine.jobs ∧ j.state ≠ .queued ∧
      ∀ k ∈ rest, k.state = .queued ∧ h ∉ k.handles := by
  unfold jobsStaying
  cases hjobs : s.engine.jobs with
  | nil => exact .inl (by simp)
  | cons j rest =>
    have hhead := hs.engine.head
    rw [hjobs] at hhead
    obtain ⟨hrun, hqueued⟩ := hhead
    refine .inr ⟨j, rest.filter fun j => !(decide (j.state = .queued) && decide (h ∈ j.handles)), ?_,
      List.mem_cons_self, hrun, fun k hk => ?_⟩
    · simp [hrun]
    · obtain ⟨hk, hstays⟩ := List.mem_filter.1 hk
      have hkq := hqueued k hk
      exact ⟨hkq, by simpa [hkq] using hstays⟩

/-! ### SURF_FREE (R58, R59) -/

theorem surfFree_eq (p : Port) (h : Handle) (s : State)
    (hown : (s.alloc.table.get h.index).state = .live ∧ (s.alloc.table.get h.index).gen = h.gen ∧
      (s.alloc.table.get h.index).owner = p) :
    surfFree p (putHandle h) s =
      if shownSurface s h ∨ submittedSurface s p h then Replied s p .inUse [] else releaseSurface p h s := by
  simp only [surfFree, handleAt_putHandle, ownLiveSurface_of_own hown, fillReply_eq_replied]

/-- What the cancellation of the queued jobs that name a surface leaves, in a lawful state. -/
theorem namersCancelled_frame {s : State} (hs : Lawful s) (h : Handle) :
    namersCancelled h s =
      { s with
        layout := (namersCancelled h s).layout
        timing := { s.timing with pending := (namersCancelled h s).timing.pending }
        pal := (namersCancelled h s).pal, fresh := (namersCancelled h s).fresh, notices := (namersCancelled h s).notices
        engine :=
          { s.engine with
            jobs := jobsStaying s h } } := by
  have hframe := cancelJobs_frame (js := queuedNaming s h) hs.queue.noWithdrawalStopped
  have hjobs : withoutJobs (queuedNaming s h) s.engine.jobs =
      jobsStaying s h :=
    withoutJobs_filter hs.engine.jobs_nodup _
  rw [hjobs] at hframe
  exact hframe

/-- The release of a surface in a lawful state: the state before the reply, by what becomes of the surface. -/
structure SurfaceReleased (s : State) (h : Handle) (u : State) : Prop where
  frame : u =
    { namersCancelled h s with
      engine :=
        { s.engine with
          jobs := (jobsStaying s h).map fun j =>
            if j.state = .running ∧ h ∈ j.handles then { j with state := .aborting } else j }
      alloc := u.alloc }
  freed : (∀ j ∈ jobsStaying s h, h ∉ j.handles) →
    u.alloc = (freeSurface h.index s).alloc
  retired : ∀ j ∈ jobsStaying s h, h ∈ j.handles →
    u.alloc = { s.alloc with table := u.alloc.table } ∧
      ∀ i : Fin 32,
        u.alloc.table.get i =
          { s.alloc.table.get i with
            state := if i = h.index then .retiring else (s.alloc.table.get i).state
            pendingAbort := (u.alloc.table.get i).pendingAbort } ∧
        ((u.alloc.table.get i).pendingAbort = true ↔ ((s.alloc.table.get i).pendingAbort = true ∨ NamedBy s j i))

theorem released_of_unnamed {s : State} (hs : Lawful s) {p : Port} {h : Handle}
    (hnone : ∀ j ∈ jobsStaying s h, h ∉ j.handles) :
    SurfaceReleased s h (freeSurface h.index (namersCancelled h s)) ∧
      releaseSurface p h s = Replied (freeSurface h.index (namersCancelled h s)) p .ok
        [0#8, BitVec.ofNat 8 (queuedNaming s h).length] := by
  have hframe := namersCancelled_frame hs h
  have halloc : (namersCancelled h s).alloc = s.alloc := by rw [hframe]
  have hengine : (namersCancelled h s).engine.jobs =
      jobsStaying s h := by rw [hframe]
  have hfreed : (freeSurface h.index (namersCancelled h s)).alloc = (freeSurface h.index s).alloc := by
    simp only [freeSurface, halloc]
  refine ⟨⟨?_, fun _ => hfreed, fun j hj hnames => absurd hnames (hnone j hj)⟩,
    releaseSurface_free (by rw [hengine]; exact running_filter_none hnone)⟩
  have hmap : (jobsStaying s h).map
      (fun j => if j.state = .running ∧ h ∈ j.handles then { j with state := .aborting } else j) =
      jobsStaying s h :=
    (List.map_congr_left fun j hj => if_neg fun hboth => hnone j hj hboth.2).trans (List.map_id _)
  rw [hmap, freeSurface_frame]
  rw [hframe]

theorem released_of_named {s : State} (hs : Lawful s) {p : Port} {h : Handle} {j : Job} {rest : List Job}
    (hstays : jobsStaying s h = j :: rest)
    (hj : j ∈ s.engine.jobs) (hstate : j.state ≠ .queued) (hrest : ∀ k ∈ rest, k.state = .queued ∧ h ∉ k.handles)
    (hnames : h ∈ j.handles) :
    SurfaceReleased s h (retireSurface h.index (beginAbort j (namersCancelled h s))) ∧
      releaseSurface p h s = Replied (retireSurface h.index (beginAbort j (namersCancelled h s))) p .ok
        [1#8, BitVec.ofNat 8 (queuedNaming s h).length] := by
  have hframe := namersCancelled_frame hs h
  rw [hstays] at hframe
  obtain ⟨v, hv⟩ : ∃ v, namersCancelled h s = v := ⟨_, rfl⟩
  have halloc : v.alloc = s.alloc := by rw [← hv, hframe]
  have hjobs : v.engine.jobs = j :: rest := by rw [← hv, hframe]
  have hengine : v.engine = { s.engine with jobs := j :: rest } := by rw [← hv, hframe]
  have hcases : j.state = .running ∨
      j.state = .aborting ∧ ∀ i, NamedBy v j i → (v.alloc.table.get i).pendingAbort = true := by
    cases hcase : j.state with
    | queued => exact absurd hcase hstate
    | running => exact .inl rfl
    | aborting =>
      refine .inr ⟨rfl, fun i hnamed => ?_⟩
      rw [NamedBy, halloc] at hnamed
      rw [halloc]
      exact hs.flagged_of_aborting hj hcase hnamed
  have haborted : (beginAbort j v).engine =
      { s.engine with
        jobs := (j :: rest).map fun j => if j.state = .running ∧ h ∈ j.handles then { j with state := .aborting } else j } := by
    have hrestmap : rest.map (fun j => if j.state = .running ∧ h ∈ j.handles then { j with state := .aborting } else j) =
        rest := (List.map_congr_left fun k hk => if_neg fun hboth => (hrest k hk).2 hboth.2).trans (List.map_id _)
    rw [List.map_cons, hrestmap]
    obtain hrunning | ⟨haborting, -⟩ := hcases
    · rw [beginAbort_running hrunning, setAbortFlags_frame, hjobs, replaceJob_head, if_pos ⟨hrunning, hnames⟩]
      simp only [State.setJobs_engine, hengine]
    · have hsame : beginAbort j v = v := by simp only [beginAbort, haborting]
      rw [hsame, hengine, if_neg fun hboth => by rw [haborting] at hboth; cases hboth.1]
  have hflags := beginAbort_flags hcases
  refine ⟨⟨?_, fun hnone => absurd hnames (hnone j (by rw [hstays]; exact List.mem_cons_self)), fun k hk hknames => ?_⟩, ?_⟩
  · rw [hstays, ← haborted, hv]
    have habort := beginAbort_frame j v
    obtain ⟨w, hw⟩ : ∃ w, beginAbort j v = w := ⟨_, rfl⟩
    rw [hw] at habort ⊢
    exact congrArg (fun x : State => { x with alloc := (retireSurface h.index w).alloc }) habort
  · obtain rfl : k = j := by
      rw [hstays] at hk
      exact (List.mem_cons.1 hk).resolve_right fun hmem => (hrest k hmem).2 hknames
    rw [hv]
    refine ⟨?_, fun i => ?_⟩
    · have hkept := beginAbort_alloc k v
      rw [halloc] at hkept
      obtain ⟨w, hw⟩ : ∃ w, beginAbort k v = w := ⟨_, rfl⟩
      rw [hw] at hkept ⊢
      exact congrArg (fun a : Allocator => { a with table := (retireSurface h.index w).alloc.table }) hkept
    · obtain ⟨hget, hpending⟩ := hflags i
      have hnamed : NamedBy v k i ↔ NamedBy s k i := by rw [NamedBy, NamedBy, halloc]
      rw [halloc, hnamed] at hpending
      rw [halloc] at hget
      rw [retireSurface_get]
      refine ⟨?_, hpending⟩
      obtain ⟨e, he⟩ : ∃ e, (beginAbort k v).alloc.table.get i = e := ⟨_, rfl⟩
      rw [he] at hget ⊢
      rw [hget]
  · refine releaseSurface_abort ?_
    rw [hv, hjobs]
    exact running_filter_head hstate hnames

/-- A release in a lawful state leaves one that the frame describes, and the reply says what became of the surface. -/
theorem Lawful.releaseSurface {s : State} (hs : Lawful s) (p : Port) (h : Handle) :
    ∃ u, SurfaceReleased s h u ∧ Machine.releaseSurface p h s = Replied u p .ok
      [if ∃ j ∈ jobsStaying s h, h ∈ j.handles then 1#8 else 0#8, BitVec.ofNat 8 (queuedNaming s h).length] := by
  by_cases hnamed : ∃ j ∈ jobsStaying s h, h ∈ j.handles
  · rw [if_pos hnamed]
    obtain ⟨k, hk, hknames⟩ := hnamed
    obtain hnil | ⟨j, rest, hstays, hj, hstate, hrest⟩ := hs.stays_cases h
    · rw [hnil] at hk
      cases hk
    · obtain rfl : k = j := by
        rw [hstays] at hk
        exact (List.mem_cons.1 hk).resolve_right fun hmem => (hrest k hmem).2 hknames
      exact ⟨_, released_of_named hs hstays hj hstate hrest hknames⟩
  · rw [if_neg hnamed]
    exact ⟨_, released_of_unnamed hs fun j hj hnames => hnamed ⟨j, hj, hnames⟩⟩

/-- What the port, the layout controller and the engine are told of the cancelled jobs (R98, R101, R103). -/
structure NamersTold (s : State) (p : Port) (h : Handle) (u : State) : Prop where
  told : ∀ j ∈ queuedNaming s h, Told (u.notices.get p) (.jobCancelled j.tag)
  waits : (s.timing.run = .running ∨
      ∀ e ∈ s.layout.queue.map (QueueEntry.dropAll p ((queuedNaming s h).map Job.arrival)), e.held = true) →
    u = cancelledJobs p (queuedNaming s h) s
  applied : s.timing.run = .stopped → ∀ x ahead behind,
    s.layout.queue.map (QueueEntry.dropAll p ((queuedNaming s h).map Job.arrival)) = ahead ++ .transaction x :: behind →
    x.awaited = [] → (∀ e ∈ ahead ++ behind, e.held = true) →
    AppliedAs s x.port x.tag x.edits s.timing.frameNumber u ∧ u.layout.queue = ahead ++ behind

theorem Lawful.namersTold {s : State} (hs : Lawful s) {p : Port} {h : Handle} (hopen : (s.sessions.get p).state = .opened)
    (howner : (s.alloc.table.get h.index).owner = p) : NamersTold s p h (namersCancelled h s) := by
  have howners : ∀ j ∈ queuedNaming s h, j.owner = p := fun j hj => by
    obtain ⟨hj, hboth⟩ := List.mem_filter.1 hj
    exact ((hs.engine.job j hj).owner_of_names (of_decide_eq_true (Bool.and_eq_true _ _ ▸ hboth).2)).trans howner
  exact ⟨fun j hj => cancelJobs_told hj (howners j hj) hs.queue.noWithdrawalStopped hopen, cancelJobs_waits howners hopen,
    fun hrun x ahead behind hsplit hawaited hheld =>
      cancelJobs_applied hawaited hheld (hs.stoppedQueue hrun) howners hopen hsplit⟩

/-- Settles O22: the refusals, then the release by the jobs that name the surface. -/
theorem surfFreeReleases : Obligations.SurfFreeReleases := by
  unfold Obligations.SurfFreeReleases
  refine ⟨fun s p pl hadm hmin hmax hindex => ?_, fun s p h hadm => ?_⟩
  · rw [exec_of_admitted (surfFree p) rfl hadm (lengthOk_iff.2 ⟨hmin, hmax⟩), surfFree, handleAt_eq_none hindex,
      ← fillReply_eq_replied]
    rfl
  intro e own shown pending
  have hopen : (s.sessions.get p).state = .opened := hadm.2.1
  have howner : own → (s.alloc.table.get h.index).owner = p := fun hown => hown.2.2
  rw [exec_of_admitted (surfFree p) rfl hadm rfl]
  have hreleased : own → ¬shown → ¬pending → surfFree p (putHandle h) s = releaseSurface p h s := fun hown hshown hpending => by
    rw [surfFree_eq p h s hown, if_neg]
    rintro (hs | hs)
    · exact hshown (shownSurface_iff.1 hs)
    · exact hpending (submittedSurface_sound hs)
  refine ⟨fun hown => ?notOwn, fun hown hshown => ?shown, fun hown hnodup hpending => ?pending, fun hown hshown hpending hjobs => ?free,
    fun j rest hown hshown hpending hjobs hstate hnames hrest => ?abort, fun hown hshown hpending hs => ?lawful⟩
  case notOwn =>
    simp only [surfFree, handleAt_putHandle, ownLiveSurface_of_not_own hown, fillReply_eq_replied]
  case shown => rw [surfFree_eq p h s hown, if_pos (.inl (shownSurface_iff.2 hshown))]
  case pending =>
    obtain ⟨t, ht, rfl, d, hd, hnames⟩ := hpending
    have hsub : submittedSurface s t.port h = true := by
      rw [submittedSurface, findTransaction_of_mem hnodup ht]
      exact List.any_eq_true.2 ⟨d, hd, edit_names_iff.2 hnames⟩
    rw [surfFree_eq t.port h s hown, if_pos (.inr hsub)]
  case free =>
    have hqueued : ∀ j ∈ s.engine.jobs, j.state = .queued → h ∉ j.handles := fun j hj _ => hjobs j hj
    rw [hreleased hown hshown hpending, releaseSurface_free, namersCancelled_of_none hqueued, queuedNaming_eq_nil hqueued]
    · rw [freeSurface_frame, freeSurface_alloc (howner hown)]
      rfl
    · rw [namersCancelled_of_none hqueued]
      exact running_filter_none hjobs
  case abort =>
    have hqueued : ∀ k ∈ s.engine.jobs, k.state = .queued → h ∉ k.handles := fun k hk hkq => by
      rw [hjobs] at hk
      obtain rfl | hk := List.mem_cons.1 hk
      · rw [hstate] at hkq
        cases hkq
      · exact hrest k hk
    have hrun : j.state ≠ .queued := by rw [hstate]; decide
    rw [hreleased hown hshown hpending, releaseSurface_abort (j := j), namersCancelled_of_none hqueued,
      queuedNaming_eq_nil hqueued]
    · have hframe := beginAbort_frame j s
      have halloc := beginAbort_alloc j s
      have hengine : (beginAbort j s).engine = { s.engine with jobs := { j with state := .aborting } :: rest } := by
        rw [beginAbort_running hstate, setAbortFlags_frame, hjobs, replaceJob_head]
        rfl
      have hflag : ((beginAbort j s).alloc.table.get h.index).pendingAbort = true :=
        (beginAbort_flags (.inl hstate) h.index).2.2 (.inr ⟨by rw [hown.1]; decide, h, hnames, rfl, hown.2.1.symm⟩)
      obtain ⟨w, hw⟩ : ∃ w, beginAbort j s = w := ⟨_, rfl⟩
      rw [hw] at hframe halloc hengine hflag ⊢
      refine ⟨_, rfl, hengine, ?_, ?_, (congrArg Allocator.free halloc :), (congrArg Allocator.charge halloc :),
        (congrArg State.store hframe :), (congrArg State.layout hframe :), (congrArg State.notices hframe :), ?_⟩
      · refine (congrArg SurfEntry.state (retireSurface_get h.index h.index w)).trans (if_pos rfl)
      · exact (congrArg SurfEntry.pendingAbort (retireSurface_get h.index h.index w)).trans hflag
      · rw [hframe]
        rfl
    · rw [namersCancelled_of_none hqueued, hjobs]
      exact running_filter_head hrun hnames
  case lawful =>
    intro gone told stays tags
    obtain ⟨u, hu, hreply⟩ := hs.releaseSurface p h
    have hnamers := hs.namersTold hopen hown.2.2
    have hnotices : u.notices = (namersCancelled h s).notices := by rw [hu.frame]
    have hlayout : u.layout = (namersCancelled h s).layout := by rw [hu.frame]
    have hframe := namersCancelled_frame hs h
    have hgone : gone.length = (queuedNaming s h).length := List.length_map _
    refine ⟨_, congrArg Host.Outcome.next ((hreleased hown hshown hpending).trans hreply), ?_, ?_, ?_, ?_, ?_, ?_, ?_, ?_, ?_⟩
    · rw [hu.frame]
      rfl
    · rw [hgone]
      refine replied_links_congr ?_
      rw [hu.frame, hframe]
    · rw [hu.frame, hframe]
      rfl
    · rw [hu.frame, hframe]
      rfl
    · intro hnone
      exact (hu.freed hnone).trans (freeSurface_alloc (howner hown))
    · exact fun j hj hnames => hu.retired j hj hnames
    · intro tag htag
      obtain ⟨j, hj, rfl⟩ := List.mem_map.1 htag
      have := hnamers.told j hj
      rw [← hnotices] at this
      exact this
    · intro hwaits
      have hall := hnamers.waits hwaits
      refine ⟨hlayout.trans (by rw [hall]; rfl), hnotices.trans ?_⟩
      have htags : tags.map Notice.jobCancelled = (queuedNaming s h).map fun j => Notice.jobCancelled j.tag := List.map_map
      rw [hall, htags]
      rfl
    · intro hrun x ahead behind hsplit hawaited hheld
      obtain ⟨happlied, hqueue⟩ := hnamers.applied hrun x ahead behind hsplit hawaited hheld
      refine ⟨happlied.congr rfl rfl rfl rfl rfl rfl (fun _ hq => hq) ?_ hnotices, ?_⟩
      · refine ⟨⟨?_, ?_⟩, ?_, ?_, ?_⟩ <;>
          · rw [hu.frame]
            rfl
      · exact (congrArg LayoutController.queue hlayout).trans hqueue

end Sys2Proof.Machine
end


section
/-! PROOFS. The steps of a teardown, one after another (R61, R69, R102, R173), and the teardown while timing runs. -/

namespace Sys2Proof.Machine

/-! ### What a teardown needs of the laws -/

/-- The facts that a teardown of a port's OPEN session rests on; none reads the links or the arbiter. -/
structure Tearable (s : State) (p : Port) : Prop where
  opened : (s.sessions.get p).state = .opened
  noWithdrawal : .withdrawal p ∉ s.layout.queue
  held : s.timing.run = .running ∨ ∀ e ∈ s.layout.queue, e.held = true
  settled : ∀ q, settleSession (s.sessions.get q) = s.sessions.get q
  head : HeadRuns s.engine.jobs
  nodup : s.engine.jobs.Nodup
  flagged : ∀ i : Fin 32, (s.alloc.table.get i).pendingAbort = true → ∃ j ∈ s.engine.jobs, j.state = .aborting ∧ NamedBy s j i
  aborting : ∀ j ∈ s.engine.jobs, j.state = .aborting → ∀ i, NamedBy s j i → (s.alloc.table.get i).pendingAbort = true
  owner : ∀ j ∈ s.engine.jobs, ∀ i, NamedBy s j i → (s.alloc.table.get i).owner = j.owner
  names : ∀ j ∈ s.engine.jobs, ∃ i, NamedBy s j i
  alloc : AllocLaw s.alloc
  dark : s.timing.run = .stopped → demand s = false

/-- A job names the entry of its destination (R60, R90). -/
theorem JobOk.names_dest {s : State} {j : Job} (hj : JobOk s j) : NamedBy s j j.dest.index := by
  obtain ⟨e, he, -⟩ := hj.dest
  obtain ⟨rfl, hfree, hgen⟩ := namedSurface_eq_some.1 he
  refine ⟨hfree, j.dest, ?_, rfl, hgen.symm⟩
  unfold Job.handles
  split <;> simp

/-- A flagged surface is one that an aborting job names (R60). -/
theorem Lawful.aborting_of_flagged {s : State} (hs : Lawful s) {i : Fin 32} (h : (s.alloc.table.get i).pendingAbort = true) :
    ∃ j ∈ s.engine.jobs, j.state = .aborting ∧ NamedBy s j i := by
  obtain ⟨hfree, habort⟩ := (hs.surface.entry i).flagged.1 h
  obtain ⟨j, hj, hboth⟩ := List.any_eq_true.1 habort
  obtain ⟨hstate, hnames⟩ := Bool.and_eq_true _ _ ▸ hboth
  exact ⟨j, hj, of_decide_eq_true hstate, hfree, _, of_decide_eq_true hnames, rfl, rfl⟩

/-- A lawful state whose links and arbiter have changed is still fit for the teardown of an OPEN session. -/
theorem Lawful.tearable {s : State} (hs : Lawful s) {p : Port} (hopen : (s.sessions.get p).state = .opened) (links : PerPort Link)
    (arb : Arbiter) : Tearable { s with links := links, arb := arb } p where
  opened := hopen
  noWithdrawal h := by
    have hclosing : (s.sessions.get p).state = .closing := (hs.queue.entry _ h).1
    rw [hopen] at hclosing
    cases hclosing
  held := by
    refine or_iff_not_imp_left.2 fun hnot => hs.queue.stopped ?_
    cases hrun : s.timing.run with
    | running => exact absurd hrun hnot
    | stopped => rfl
  settled := hs.queue.atEventEnd_eq
  head := hs.engine.head
  nodup := hs.engine.jobs_nodup
  flagged _ := hs.aborting_of_flagged
  aborting _ hj hstate _ := hs.flagged_of_aborting hj hstate
  owner j hj i hnamed := by
    obtain ⟨-, h, hmem, rfl, -⟩ := hnamed
    exact ((hs.engine.job j hj).owner_of_names hmem).symm
  names j hj := ⟨_, (hs.engine.job j hj).names_dest⟩
  alloc := hs.alloc
  dark hrun := hs.power.darkQuiet (hs.power.dark.2 hrun)

/-! ### Step 3: the port's jobs (R102) -/

/-- A report on a job of a port without an entry, when nothing is to be applied. -/
theorem jobFinished_of_absent {p : Port} {n : BitVec 16} {s : State} (habsent : ∀ e ∈ s.layout.queue, e.port ≠ p)
    (hheld : s.timing.run = .running ∨ ∀ e ∈ s.layout.queue, e.held = true) : jobFinished p n s = s := by
  have hqueue : s.layout.queue.map (QueueEntry.dropAwaited p n) = s.layout.queue :=
    (List.map_congr_left fun e he => dropAwaited_of_ne (habsent e he)).trans (List.map_id _)
  rw [jobFinished, hqueue]
  have hsame : s.setQueue s.layout.queue = s := rfl
  rw [hsame]
  exact hheld.elim applyIfStopped_running applyIfStopped_of_held

theorem teardownFold_eq {p : Port} : ∀ {js : List Job} {s : State}, (∀ e ∈ s.layout.queue, e.port ≠ p) →
    (s.timing.run = .running ∨ ∀ e ∈ s.layout.queue, e.held = true) →
    js.foldl (fun t j => jobFinished p j.arrival (t.setJobs (removeJob j t.engine.jobs))) s =
      s.setJobs (withoutJobs js s.engine.jobs)
  | [], _, _, _ => rfl
  | j :: js, s, habsent, hheld => by
    rw [List.foldl_cons, jobFinished_of_absent (s := s.setJobs (removeJob j s.engine.jobs)) habsent hheld]
    exact teardownFold_eq (s := s.setJobs (removeJob j s.engine.jobs)) habsent hheld

/-- The jobs of a port that its teardown leaves: none, or the running one at the head (R88, R102). -/
theorem HeadRuns.cases {jobs : List Job} (h : HeadRuns jobs) :
    jobs = [] ∨ ∃ j rest, jobs = j :: rest ∧ j.state ≠ .queued ∧ ∀ k ∈ rest, k.state = .queued := by
  cases jobs with
  | nil => exact .inl rfl
  | cons j rest => exact .inr ⟨j, rest, rfl, h⟩

/-- What the engine's part of a teardown makes of the engine and of the flags. -/
structure JobsTornDown (s : State) (p : Port) (t : State) : Prop where
  frame : t = { s with engine := engineTornDown s p, alloc := { s.alloc with table := t.alloc.table } }
  table : ∀ i : Fin 32, t.alloc.table.get i =
    { s.alloc.table.get i with pendingAbort := (t.alloc.table.get i).pendingAbort }
  flags : ∀ i : Fin 32, (t.alloc.table.get i).pendingAbort = true ↔
    ((s.alloc.table.get i).pendingAbort = true ∨ ∃ j ∈ s.engine.jobs, j.owner = p ∧ j.state = .running ∧ NamedBy s j i)

theorem JobsTornDown.of_none {s : State} {p : Port}
    (hengine : engineTornDown s p =
      { s.engine with jobs := s.engine.jobs.filter fun j => !(decide (j.owner = p) && decide (j.state = .queued)) })
    (hnone : ∀ j ∈ s.engine.jobs, j.owner = p → j.state = .queued) :
    JobsTornDown s p
      (s.setJobs (s.engine.jobs.filter fun j => !(decide (j.owner = p) && decide (j.state = .queued)))) := by
  refine ⟨?_, fun i => rfl, fun i => ⟨.inl, ?_⟩⟩
  · rw [hengine]
    rfl
  · rintro (hold | ⟨j, hj, howner, hrunning, -⟩)
    · exact hold
    · rw [hnone j hj howner] at hrunning
      cases hrunning

/-- The port's running job loses its notify field and is aborted (R99, R102). -/
theorem JobsTornDown.of_abort {s : State} {p : Port} {j : Job} {rest js : List Job} (hjobs : s.engine.jobs = j :: rest)
    (howner : j.owner = p) (hstate : j.state ≠ .queued) (hrest : ∀ k ∈ rest, k.state = .queued)
    (habort : ∀ j ∈ s.engine.jobs, j.state = .aborting → ∀ i, NamedBy s j i → (s.alloc.table.get i).pendingAbort = true)
    {left : List Job}
    (hengine : engineTornDown s p = { s.engine with jobs := { j with state := .aborting, notify := false } :: left }) :
    JobsTornDown s p
      (beginAbort { j with notify := false } ((s.setJobs js).setJobs ({ j with notify := false } :: left))) := by
  have hj : j ∈ s.engine.jobs := by
    rw [hjobs]
    exact List.mem_cons_self
  obtain ⟨v, hv⟩ : ∃ v, (s.setJobs js).setJobs ({ j with notify := false } :: left) = v := ⟨_, rfl⟩
  have halloc : v.alloc = s.alloc := by rw [← hv]; rfl
  have hjobsv : v.engine = { s.engine with jobs := { j with notify := false } :: left } := by rw [← hv]; rfl
  have hnamed : ∀ i, NamedBy v { j with notify := false } i ↔ NamedBy s j i := fun i => by
    rw [NamedBy, NamedBy, halloc]
    rfl
  have hcases : j.state = .running ∨ j.state = .aborting := by
    cases h : j.state with
    | queued => exact absurd h hstate
    | running => exact .inl rfl
    | aborting => exact .inr rfl
  have hflags := beginAbort_flags (s := v) (j := { j with notify := false }) (hcases.imp_right fun h =>
    ⟨h, fun i hi => by
      rw [halloc]
      exact habort j hj h i ((hnamed i).1 hi)⟩)
  have hone : (beginAbort { j with notify := false } v).engine = engineTornDown s p := by
    rw [hengine]
    obtain hrunning | haborting := hcases
    · rw [beginAbort_running (by exact hrunning), setAbortFlags_frame, State.setJobs_engine, hjobsv, replaceJob_head]
    · have hsame : beginAbort { j with notify := false } v = v := by simp only [beginAbort, haborting]
      rw [hsame, hjobsv, ← haborting]
  have hframe := beginAbort_frame { j with notify := false } v
  have hblocks := beginAbort_alloc { j with notify := false } v
  rw [hv]
  obtain ⟨w, hw⟩ : ∃ w, beginAbort { j with notify := false } v = w := ⟨_, rfl⟩
  rw [hw] at hone hframe hblocks hflags ⊢
  rw [halloc] at hblocks
  refine ⟨?_, fun i => ?_, fun i => ?_⟩
  · rw [hone] at hframe
    rw [hframe]
    rw [← hblocks, ← hv]
    rfl
  · rw [← halloc]
    exact (hflags i).1
  · rw [(hflags i).2, halloc, hnamed]
    constructor
    · rintro (hold | hj')
      · exact .inl hold
      · obtain hrunning | haborting := hcases
        · exact .inr ⟨j, hj, howner, hrunning, hj'⟩
        · exact .inl (habort j hj haborting i hj')
    · rintro (hold | ⟨k, hk, -, hrunning, hk'⟩)
      · exact .inl hold
      · rw [hjobs] at hk
        obtain rfl | hk := List.mem_cons.1 hk
        · exact .inr hk'
        · rw [hrest k hk] at hrunning
          cases hrunning

theorem teardownJobs_tornDown {s : State} {p : Port} (hhead : HeadRuns s.engine.jobs) (hnodup : s.engine.jobs.Nodup)
    (habsent : ∀ e ∈ s.layout.queue, e.port ≠ p)
    (hheld : s.timing.run = .running ∨ ∀ e ∈ s.layout.queue, e.held = true)
    (habort : ∀ j ∈ s.engine.jobs, j.state = .aborting → ∀ i, NamedBy s j i → (s.alloc.table.get i).pendingAbort = true) :
    JobsTornDown s p (teardownJobs p s) := by
  have hfold := teardownFold_eq (js := s.engine.jobs.filter fun j => decide (j.owner = p) && decide (j.state = .queued))
    habsent hheld
  rw [withoutJobs_filter hnodup] at hfold
  have hkept : (s.engine.jobs.filter fun j => decide (¬(j.owner = p ∧ j.state = .queued))) =
      s.engine.jobs.filter fun j => !(decide (j.owner = p) && decide (j.state = .queued)) :=
    List.filter_congr fun j _ => by simp
  have hqueued : ∀ {ks : List Job}, (∀ k ∈ ks, k.state = .queued) →
      ((ks.filter fun j => !(decide (j.owner = p) && decide (j.state = .queued))).map fun j =>
          if j.owner = p then { j with state := .aborting, notify := false } else j) =
        ks.filter fun j => !(decide (j.owner = p) && decide (j.state = .queued)) := fun hks => by
    refine (List.map_congr_left fun k hk => if_neg fun howner => ?_).trans (List.map_id _)
    obtain ⟨hk, hstays⟩ := List.mem_filter.1 hk
    simp [howner, hks k hk] at hstays
  unfold teardownJobs
  dsimp only
  rw [hfold, State.setJobs_engine]
  obtain hnil | ⟨j, rest, hjobs, hstate, hrest⟩ := hhead.cases
  · have hnone : s.engine.jobs.filter (fun j => !(decide (j.owner = p) && decide (j.state = .queued))) = [] := by
      rw [hnil]
      rfl
    have hrun : runningJob (s.engine.jobs.filter fun j => !(decide (j.owner = p) && decide (j.state = .queued))) = none := by
      rw [hnone]
      rfl
    simp only [hrun]
    refine JobsTornDown.of_none ?_ (by simp [hnil])
    rw [engineTornDown, hkept, hqueued (by simp [hnil])]
  · have hfilter : s.engine.jobs.filter (fun j => !(decide (j.owner = p) && decide (j.state = .queued))) =
        j :: rest.filter fun j => !(decide (j.owner = p) && decide (j.state = .queued)) := by
      rw [hjobs]
      exact List.filter_cons_of_pos (by simp [hstate])
    have hrun : runningJob (s.engine.jobs.filter fun j => !(decide (j.owner = p) && decide (j.state = .queued))) = some j := by
      rw [hfilter]
      exact runningJob_head hstate
    simp only [hrun]
    by_cases howner : j.owner = p
    · have hengine : engineTornDown s p =
          { s.engine with
            jobs := { j with state := .aborting, notify := false } ::
              rest.filter fun j => !(decide (j.owner = p) && decide (j.state = .queued)) } := by
        rw [engineTornDown, hkept, hfilter, List.map_cons, hqueued hrest, if_pos howner]
      rw [if_pos howner, hfilter, replaceJob_head]
      exact JobsTornDown.of_abort hjobs howner hstate hrest habort hengine
    · rw [if_neg howner]
      refine JobsTornDown.of_none ?_ fun k hk hko => ?_
      · rw [engineTornDown, hkept, hfilter, List.map_cons, hqueued hrest, if_neg howner]
      · rw [hjobs] at hk
        obtain rfl | hk := List.mem_cons.1 hk
        · exact absurd hko howner
        · exact hrest k hk

/-! ### Steps 1 to 3 -/

/-- A session whose teardown has begun (R173). -/
def Session.torn (x : Session) : Session := { x with state := .closing, withdrawalPending := true, surfacesPending := true }

/-- The state after the first three steps of a teardown. -/
def tornToJobs (p : Port) (s : State) : State :=
  teardownJobs p (teardownLayout p (teardownSurfaces p (s.setSession p (s.sessions.get p).torn)))

theorem teardown_eq (p : Port) (s : State) :
    teardown p s =
      settleSessions ((changeVote p none (dropCursor p (appendWithdrawal p (tornToJobs p s)))).setNotices p
        NoticeQueue.cleared) := rfl

theorem retireSurfaces_get (p : Port) (t : Vector SurfEntry 32) (i : Fin 32) :
    (retireSurfaces p t).get i =
      { t.get i with state := if (t.get i).state = .live ∧ (t.get i).owner = p then .retiring else (t.get i).state } := by
  simp only [retireSurfaces, Vector.get_eq_getElem, Vector.getElem_map]
  split
  · rfl
  · rfl

/-- The state before step 3: the access is gone, the surfaces retire and the edits are discarded (R61, R69, R173). -/
def tornToLayout (p : Port) (s : State) : State :=
  { s with
    links := (discardAccess (attentionPending s p) p s).links
    arb := { s.arb with ports := s.arb.ports.filter fun a => decide (a.port ≠ p) }
    sessions := s.sessions.set p (s.sessions.get p).torn
    layout :=
      { s.layout with
        staging := s.layout.staging.set p []
        record := s.layout.record.set p .noSubmit
        queue := s.layout.queue.filter fun e => decide (e.port ≠ p) }
    alloc :=
      { s.alloc with
        table := retireSurfaces p s.alloc.table
        withdrawalOut := s.alloc.withdrawalOut.set p true
        reportOwed := s.alloc.reportOwed.set p true } }

theorem tornToJobs_eq {p : Port} {s : State} (hnone : .withdrawal p ∉ s.layout.queue) :
    tornToJobs p s = teardownJobs p (tornToLayout p s) := by
  have hqueue : (s.layout.queue.filter fun e => !e.isTransactionOf p) = s.layout.queue.filter fun e => decide (e.port ≠ p) := by
    refine List.filter_congr fun e he => ?_
    cases e with
    | transaction x => exact (decide_not (p := x.port = p)).symm
    | withdrawal q =>
      have hne : q ≠ p := fun hq => hnone (hq ▸ he)
      simp [QueueEntry.isTransactionOf, QueueEntry.port, hne]
  have hframe := discardAccess_frame (attentionPending s p) p s
  rw [tornToJobs, teardownSurfaces_setSession]
  obtain ⟨d, hd⟩ : ∃ d, discardAccess (attentionPending s p) p s = d := ⟨_, rfl⟩
  unfold tornToLayout
  rw [hd] at hframe ⊢
  rw [← hqueue]
  refine congrArg (teardownJobs p) ?_
  rw [hframe]
  rfl

/-- What the first three steps of a teardown leave. -/
structure TornToJobs (s : State) (p : Port) (w : State) : Prop where
  frame : w =
    { tornToLayout p s with
      engine := engineTornDown s p, alloc := { (tornToLayout p s).alloc with table := w.alloc.table } }
  surfaces : ∀ i : Fin 32,
    w.alloc.table.get i =
      { s.alloc.table.get i with
        state := if (s.alloc.table.get i).state = .live ∧ (s.alloc.table.get i).owner = p then .retiring
          else (s.alloc.table.get i).state
        pendingAbort := (w.alloc.table.get i).pendingAbort }
  flags : ∀ i : Fin 32, (w.alloc.table.get i).pendingAbort = true ↔
    ((s.alloc.table.get i).pendingAbort = true ∨
      ∃ j ∈ s.engine.jobs, j.owner = p ∧ j.state = .running ∧ NamedBy s j i)

theorem namedBy_tornToLayout {s : State} {p : Port} {j : Job} {i : Fin 32} : NamedBy (tornToLayout p s) j i ↔ NamedBy s j i := by
  have hget : (tornToLayout p s).alloc.table.get i = _ := retireSurfaces_get p s.alloc.table i
  rw [NamedBy, NamedBy, hget]
  refine and_congr_left fun _ => ?_
  dsimp only
  split
  case isTrue h =>
    rw [h.1]
    decide
  case isFalse => rfl

theorem tornToJobs_torn {s : State} {p : Port} (h : Tearable s p) : TornToJobs s p (tornToJobs p s) := by
  rw [tornToJobs_eq h.noWithdrawal]
  have hget : ∀ i, (tornToLayout p s).alloc.table.get i = _ := retireSurfaces_get p s.alloc.table
  have hjobs : JobsTornDown (tornToLayout p s) p (teardownJobs p (tornToLayout p s)) :=
    teardownJobs_tornDown h.head h.nodup (fun e he => of_decide_eq_true (List.mem_filter.1 he).2)
      (h.held.imp_right fun hheld e he => hheld e (List.mem_filter.1 he).1)
      fun j hj hstate i hnamed => by
        rw [hget]
        exact h.aborting j hj hstate i (namedBy_tornToLayout.1 hnamed)
  refine ⟨hjobs.frame, fun i => ?_, fun i => ?_⟩
  · have hone := hjobs.table i
    rw [hget] at hone
    exact hone
  · rw [hjobs.flags i, hget]
    exact or_congr_right (exists_congr fun j => and_congr_right fun _ => and_congr_right fun _ => and_congr_right fun _ =>
      namedBy_tornToLayout)

/-! ### The teardown while timing runs (R173) -/

theorem appendWithdrawal_running {p : Port} {s : State} (h : s.timing.run = .running) :
    appendWithdrawal p s = s.setQueue (s.layout.queue ++ [.withdrawal p]) := applyIfStopped_running h

/-- A session that the teardown leaves CLOSING, beside sessions that have nothing to settle (R174). -/
theorem settleSessions_set {p : Port} {x : Session} {s t : State} (hsettled : ∀ q, settleSession (s.sessions.get q) = s.sessions.get q)
    (hsessions : t.sessions = s.sessions.set p x) :
    settleSessions t = { t with sessions := s.sessions.set p (settleSession x) } := by
  rw [settleSessions_frame, hsessions]
  have hmap : (s.sessions.set p x).map settleSession = s.sessions.set p (settleSession x) := by
    refine PerPort.ext_get fun q => ?_
    rw [PerPort.get_map, PerPort.get_set, PerPort.get_set]
    split
    · rfl
    · exact hsettled q
  rw [hmap]

/-- No vote withdrawn makes demand appear (R135). -/
theorem demand_of_withdrawn {s : State} {p : Port}
    (h : demand { s with power := { s.power with votes := s.power.votes.set p none } } = true) : demand s = true := by
  obtain ⟨q, hq, hon⟩ := List.any_eq_true.1 h
  refine List.any_eq_true.2 ⟨q, hq, ?_⟩
  have hget : (s.power.votes.set p none).get q = if q = p then none else s.power.votes.get q := PerPort.get_set _ _ _ _
  dsimp only at hon
  rw [hget] at hon
  split at hon
  · cases hon
  · exact hon

/-- A vote withdrawn from a state with the power and the timing of `s` (R135). -/
structure VoteGone (s v : State) (p : Port) (u : State) : Prop where
  frame : u =
    { v with
      power := powerAfterVote s (s.power.votes.set p none) (demand s)
        (demand { s with power := { s.power with votes := s.power.votes.set p none } })
      timing := u.timing, notices := u.notices, draws := u.draws }
  stops : StopsAtLoss s (demand s) (demand { s with power := { s.power with votes := s.power.votes.set p none } }) →
    u.timing = (stopRequest s).timing
  timing : ¬StopsAtLoss s (demand s) (demand { s with power := { s.power with votes := s.power.votes.set p none } }) →
    u.timing = s.timing
  told : ∀ q, u.notices.get q =
    if (v.sessions.get q).state = .opened ∧ u.power.state ≠ s.power.state then (v.notices.get q).take (.power u.power.state)
    else v.notices.get q

theorem voteGone_changeVote {s v : State} {p : Port} (hpower : v.power = s.power) (htiming : v.timing = s.timing) :
    VoteGone s v p (changeVote p none v) := by
  have hvote := changeVote_voteChanged p none v
  obtain ⟨u, hu⟩ : ∃ u, changeVote p none v = u := ⟨_, rfl⟩
  rw [hu] at hvote ⊢
  have hbefore : demand v = demand s := demand_congr (by rw [hpower])
  have hafter : demand { v with power := { v.power with votes := v.power.votes.set p none } } =
      demand { s with power := { s.power with votes := s.power.votes.set p none } } := demand_congr (by rw [hpower])
  have hstep : ∀ votes before after, powerAfterVote v votes before after = powerAfterVote s votes before after :=
    fun _ _ _ => by simp only [powerAfterVote, hpower]
  have hstopping : ∀ before after, StopsAtLoss v before after ↔ StopsAtLoss s before after := fun _ _ => by
    rw [StopsAtLoss, StopsAtLoss, hpower]
  have hrequest : (stopRequest v).timing = (stopRequest s).timing := by
    unfold stopRequest
    rw [htiming]
    cases s.timing.run
    · exact htiming
    · rfl
  rw [hbefore, hafter, hpower] at hvote
  obtain ⟨hframe, -, hstops, hkept, hquiet⟩ := hvote
  have hnot : ¬StartsAtDemand v (demand s) (demand { s with power := { s.power with votes := s.power.votes.set p none } }) :=
    fun ⟨_, _, hno, hyes⟩ => by
      rw [demand_of_withdrawn hyes] at hno
      cases hno
  obtain ⟨hfresh, hscan, harb, htold, hsame⟩ := hquiet hnot
  rw [hpower] at htold hsame
  refine ⟨?_, fun h => (hstops ((hstopping _ _).2 h)).trans hrequest, fun h => (hkept hnot (mt (hstopping _ _).1 h)).trans htiming,
    fun q => ?_⟩
  · rw [hstep, hfresh, hscan, harb] at hframe
    exact hframe
  · by_cases hchange : u.power.state = s.power.state
    · rw [hsame hchange, if_neg fun h => h.2 hchange]
    · rw [htold hchange q]
      exact if_congr (and_iff_left hchange).symm rfl rfl

theorem settleSession_torn (x : Session) : settleSession x.torn = x.torn := atEventEnd_marked (x := x.torn) (.inl rfl)

/-- The teardown while timing runs: the withdrawal waits for the next VBLANK_START (R28, R173). -/
theorem tornDown_of_running {s : State} {p : Port} (h : Tearable s p) (hrun : s.timing.run = .running) :
    TornDown s p (teardown p s) := by
  have htorn := tornToJobs_torn h
  obtain ⟨w, hw⟩ : ∃ w, tornToJobs p s = w := ⟨_, rfl⟩
  rw [hw] at htorn
  obtain ⟨hframe, hsurfaces, hflags⟩ := htorn
  obtain ⟨v, hv⟩ : ∃ v, dropCursor p (w.setQueue (w.layout.queue ++ [.withdrawal p])) = v := ⟨_, rfl⟩
  have hvframe : v =
      { tornToLayout p s with
        engine := engineTornDown s p
        alloc := { (tornToLayout p s).alloc with table := w.alloc.table }
        layout :=
          { (tornToLayout p s).layout with
            queue := (s.layout.queue.filter fun e => decide (e.port ≠ p)) ++ [.withdrawal p] }
        pal := { s.pal with records := s.pal.records.set p { s.pal.records.get p with cursor := none } } } := by
    rw [← hv]
    obtain ⟨tb, htb⟩ : ∃ tb, w.alloc.table = tb := ⟨_, rfl⟩
    rw [htb] at hframe ⊢
    rw [hframe]
    rfl
  have hgone := voteGone_changeVote (s := s) (v := v) (p := p) (by rw [hvframe]; rfl) (by rw [hvframe]; rfl)
  obtain ⟨u, hu⟩ : ∃ u, changeVote p none v = u := ⟨_, rfl⟩
  rw [hu] at hgone
  obtain ⟨huframe, hstops, hkept, htold⟩ := hgone
  have ht : teardown p s = { u.setNotices p NoticeQueue.cleared with sessions := s.sessions.set p (s.sessions.get p).torn } := by
    rw [teardown_eq, hw, appendWithdrawal_running (by rw [hframe]; exact hrun), hv, hu]
    refine (settleSessions_set (p := p) (x := (s.sessions.get p).torn) h.settled ?_).trans ?_
    · rw [State.setNotices_sessions, huframe, hvframe]
      rfl
    · rw [settleSession_torn]
  have hblocks : u =
      { v with
        power := u.power, timing := u.timing, notices := u.notices, draws := u.draws } := by
    rw [huframe]
  rw [ht]
  constructor
  case session => rfl
  case power => exact congrArg State.power huframe
  case surfaces =>
    intro i
    have halloc : u.alloc.table = w.alloc.table := by rw [hblocks, hvframe]
    refine Eq.trans (congrArg (fun t : Vector SurfEntry 32 => t.get i) halloc) ((hsurfaces i).trans ?_)
    rw [← halloc]
    rfl
  case flags =>
    intro i
    have halloc : u.alloc.table = w.alloc.table := by rw [hblocks, hvframe]
    rw [← hflags i, ← halloc]
    rfl
  case blocks =>
    refine ⟨?_, ?_, ?_, ?_, ?_⟩ <;>
      · rw [hblocks, hvframe]
        rfl
  case notices => exact PerPort.get_set_same _ _ _
  case told =>
    intro q hq
    refine (PerPort.get_set_ne _ _ hq).trans ((htold q).trans ?_)
    have hsession : v.sessions.get q = s.sessions.get q := by
      rw [hvframe]
      exact PerPort.get_set_ne _ _ hq
    have hnotices : v.notices = s.notices := by rw [hvframe]; rfl
    rw [hsession, hnotices]
    rfl
  case timing =>
    by_cases hstop : StopsAtLoss s (demand s) (demand { s with power := { s.power with votes := s.power.votes.set p none } })
    · refine (hstops hstop).trans ?_
      simp only [stopRequest, hrun]
      rw [decide_eq_true (by exact hstop), Bool.or_true]
    · refine (hkept hstop).trans ?_
      rw [decide_eq_false (by exact hstop), Bool.or_false]
  all_goals
    rw [hblocks, hvframe]
    rfl

end Sys2Proof.Machine
end


section
/-! PROOFS. The teardown while timing is stopped, and the teardowns of CLOSE, of a port reset and of an eviction (R45, R156, R170 to
R174). -/

namespace Sys2Proof.Machine

/-! ### The withdrawal applied at once (R44, R45) -/

theorem appendWithdrawal_stopped {p : Port} {s : State} (hrun : s.timing.run = .stopped)
    (hheld : ∀ e ∈ s.layout.queue, e.held = true) : appendWithdrawal p s = applyWithdrawal p s := by
  have hnone : ∀ e ∈ s.layout.queue ++ [], e.held = true := by simpa using hheld
  have hfilter : (s.layout.queue ++ [QueueEntry.withdrawal p]).filter QueueEntry.held = s.layout.queue := by
    rw [List.filter_append, filter_held_of_all hheld]
    exact List.append_nil _
  have hpass : applicationPass (s.setQueue (s.layout.queue ++ [.withdrawal p])) = (applyWithdrawal p s, []) := by
    rw [applicationPass, State.setQueue_layout, hfilter]
    exact applyEntries_single hnone (e := .withdrawal p) rfl _
  have hstopped : timingStopped (s.setQueue (s.layout.queue ++ [.withdrawal p])) = true := timingStopped_iff.2 hrun
  rw [appendWithdrawal, applyIfStopped, if_pos hstopped, hpass]
  rfl

theorem surfacesReport_quota (p : Port) (s : State) :
    (surfacesReport p s).alloc.quota = s.alloc.quota ∧
      (surfacesReport p s).alloc.withdrawalOut = s.alloc.withdrawalOut := by
  unfold surfacesReport
  split
  · exact ⟨rfl, rfl⟩
  · exact ⟨rfl, rfl⟩

/-- The marks that an applied withdrawal leaves at the allocator (R61, R62). -/
theorem applyWithdrawal_quota (p : Port) (s : State) :
    (applyWithdrawal p s).alloc.quota = s.alloc.quota ∧
      (applyWithdrawal p s).alloc.withdrawalOut = s.alloc.withdrawalOut.set p false := by
  obtain ⟨hquota, hout, -⟩ := freedForWithdrawal_marks p (withdrawnTables p s)
  rw [withdrawnTables_alloc] at hquota hout
  obtain ⟨hkept, hmarks⟩ := surfacesReport_quota p (freedForWithdrawal p (withdrawnTables p s))
  rw [applyWithdrawal_eq, State.setSession_alloc, withdrawalReport_eq]
  exact ⟨hkept.trans hquota, hmarks.trans hout⟩

theorem applyWithdrawal_owed_done {p : Port} {s : State}
    (hnone : ∀ i : Fin 32, (s.alloc.table.get i).state = .retiring → (s.alloc.table.get i).owner = p →
      (s.alloc.table.get i).pendingAbort = false) (howed : s.alloc.reportOwed.get p = true) :
    (applyWithdrawal p s).alloc.reportOwed = s.alloc.reportOwed.set p false := by
  obtain ⟨-, hout, howes⟩ := freedForWithdrawal_marks p (withdrawnTables p s)
  rw [withdrawnTables_alloc] at hout howes
  have hno : noRetiring (freedForWithdrawal p (withdrawnTables p s)) p = true := freedForWithdrawal_noRetiring.2 hnone
  rw [applyWithdrawal_eq, State.setSession_alloc, withdrawalReport_eq,
    surfacesReport_due (by rw [howes, howed]) (by rw [hout, PerPort.get_set_same]) hno]
  simp only [howes]

theorem applyWithdrawal_owed_waits {p : Port} {s : State} {i : Fin 32} (hret : (s.alloc.table.get i).state = .retiring)
    (hown : (s.alloc.table.get i).owner = p) (habort : (s.alloc.table.get i).pendingAbort = true) :
    (applyWithdrawal p s).alloc.reportOwed = s.alloc.reportOwed := by
  obtain ⟨-, -, howes⟩ := freedForWithdrawal_marks p (withdrawnTables p s)
  rw [applyWithdrawal_eq, State.setSession_alloc, withdrawalReport_eq, surfacesReport_not_due, howes, withdrawnTables_alloc]
  rintro ⟨-, -, hno⟩
  have hclear := freedForWithdrawal_noRetiring.1 hno i hret hown
  rw [withdrawnTables_alloc, habort] at hclear
  cases hclear

/-! ### The surfaces after the engine's part (R60, R61, R102) -/

section
variable {s w : State} {p : Port} {i : Fin 32}

theorem TornToJobs.owner (hw : TornToJobs s p w) : (w.alloc.table.get i).owner = (s.alloc.table.get i).owner := by
  rw [hw.surfaces i]

/-- A surface of the port that its running job names retires under the job's abort. -/
theorem TornToJobs.named (hw : TornToJobs s p w) (h : Tearable s p) (howner : (s.alloc.table.get i).owner = p)
    (hnamed : ∃ j ∈ s.engine.jobs, j.owner = p ∧ j.state ≠ .queued ∧ NamedBy s j i) :
    w.alloc.table.get i = { s.alloc.table.get i with state := .retiring, pendingAbort := true } := by
  obtain ⟨j, hj, hjo, hstate, hn⟩ := hnamed
  have hflag : (w.alloc.table.get i).pendingAbort = true := by
    rw [hw.flags i]
    cases hcase : j.state with
    | queued => exact absurd hcase hstate
    | running => exact .inr ⟨j, hj, hjo, hcase, hn⟩
    | aborting => exact .inl (h.aborting j hj hcase i hn)
  have hret : (if (s.alloc.table.get i).state = .live ∧ (s.alloc.table.get i).owner = p then SurfState.retiring
      else (s.alloc.table.get i).state) = .retiring := by
    cases hcase : (s.alloc.table.get i).state with
    | free => exact absurd hcase hn.1
    | live => exact if_pos ⟨rfl, howner⟩
    | retiring => exact if_neg fun hl => by cases hl.1
  rw [hw.surfaces i, hflag, hret]

/-- A surface of the port that its running job does not name carries no flag. -/
theorem TornToJobs.unnamed (hw : TornToJobs s p w) (h : Tearable s p) (howner : (s.alloc.table.get i).owner = p)
    (hnone : ∀ j ∈ s.engine.jobs, j.owner = p → j.state ≠ .queued → ¬NamedBy s j i) :
    (s.alloc.table.get i).pendingAbort = false ∧ (w.alloc.table.get i).pendingAbort = false := by
  have hold : ¬(s.alloc.table.get i).pendingAbort = true := fun hflag => by
    obtain ⟨j, hj, hstate, hn⟩ := h.flagged i hflag
    exact hnone j hj ((h.owner j hj i hn).symm.trans howner) (by rw [hstate]; decide) hn
  refine ⟨Bool.eq_false_iff.2 hold, Bool.eq_false_iff.2 fun hflag => ?_⟩
  obtain hflag | ⟨j, hj, hjo, hstate, hn⟩ := (hw.flags i).1 hflag
  · exact hold hflag
  · exact hnone j hj hjo (by rw [hstate]; decide) hn

/-- The surfaces of other ports are as they were. -/
theorem TornToJobs.other (hw : TornToJobs s p w) (h : Tearable s p) (howner : (s.alloc.table.get i).owner ≠ p) :
    w.alloc.table.get i = s.alloc.table.get i := by
  have hflag : (w.alloc.table.get i).pendingAbort = (s.alloc.table.get i).pendingAbort := by
    rw [Bool.eq_iff_iff, hw.flags i]
    refine or_iff_left ?_
    rintro ⟨j, hj, hjo, -, hn⟩
    exact howner ((h.owner j hj i hn).trans hjo)
  rw [hw.surfaces i, hflag, if_neg fun hl => howner hl.2]

/-- When no job of the port runs, none of its surfaces waits. -/
theorem TornToJobs.none_flagged (hw : TornToJobs s p w) (h : Tearable s p) (hruns : ¬RunsJob s p) (i : Fin 32)
    (howner : (w.alloc.table.get i).owner = p) : (w.alloc.table.get i).pendingAbort = false :=
  (hw.unnamed h (hw.owner.symm.trans howner) fun j hj hjo hstate _ => hruns ⟨j, hj, hjo, hstate⟩).2

/-- While a job of the port runs, a surface of the port waits for its abort. -/
theorem TornToJobs.some_flagged (hw : TornToJobs s p w) (h : Tearable s p) (hruns : RunsJob s p) :
    ∃ i : Fin 32, (w.alloc.table.get i).state = .retiring ∧ (w.alloc.table.get i).owner = p ∧
      (w.alloc.table.get i).pendingAbort = true := by
  obtain ⟨j, hj, hjo, hstate⟩ := hruns
  obtain ⟨i, hn⟩ := h.names j hj
  have howner := (h.owner j hj i hn).trans hjo
  refine ⟨i, ?_⟩
  rw [hw.named h howner ⟨j, hj, hjo, hstate, hn⟩]
  exact ⟨rfl, howner, rfl⟩

end

/-! ### The withdrawal of a torn session, applied (R44, R62, R174) -/

section
variable {s w : State} {p : Port} {i : Fin 32}

theorem TornToJobs.withdrawn_owner (hw : TornToJobs s p w) :
    ((applyWithdrawal p w).alloc.table.get i).owner = (s.alloc.table.get i).owner := by
  rw [applyWithdrawal_table_get]
  split
  · exact hw.owner
  · exact hw.owner

/-- What the port's running job names waits for the abort (R60). -/
theorem TornToJobs.withdrawn_named (hw : TornToJobs s p w) (h : Tearable s p) (howner : (s.alloc.table.get i).owner = p)
    (hnamed : ∃ j ∈ s.engine.jobs, j.owner = p ∧ j.state ≠ .queued ∧ NamedBy s j i) :
    (applyWithdrawal p w).alloc.table.get i = { s.alloc.table.get i with state := .retiring, pendingAbort := true } := by
  rw [applyWithdrawal_table_get, hw.named h howner hnamed]
  exact if_neg fun hfree => by cases hfree.2.2

/-- Every other surface of the port is FREE (R62). -/
theorem TornToJobs.withdrawn_unnamed (hw : TornToJobs s p w) (h : Tearable s p) (howner : (s.alloc.table.get i).owner = p)
    (hnone : ∀ j ∈ s.engine.jobs, j.owner = p → j.state ≠ .queued → ¬NamedBy s j i) :
    (applyWithdrawal p w).alloc.table.get i = { s.alloc.table.get i with state := .free } := by
  obtain ⟨hold, hnew⟩ := hw.unnamed h howner hnone
  have hget := hw.surfaces i
  rw [hnew, ← hold] at hget
  rw [applyWithdrawal_table_get, hw.owner, howner, hnew]
  cases hcase : (s.alloc.table.get i).state with
  | free =>
    rw [hcase, if_neg fun hl => by cases hl.1] at hget
    rw [hget, if_neg fun hfree => (by cases hfree.2.1), ← hcase]
  | live =>
    rw [hcase, if_pos ⟨rfl, howner⟩] at hget
    rw [hget, if_pos ⟨rfl, rfl, rfl⟩]
  | retiring =>
    rw [hcase, if_neg fun hl => by cases hl.1] at hget
    rw [hget, if_pos ⟨rfl, rfl, rfl⟩]

theorem TornToJobs.withdrawn_other (hw : TornToJobs s p w) (h : Tearable s p) (howner : (s.alloc.table.get i).owner ≠ p) :
    (applyWithdrawal p w).alloc.table.get i = s.alloc.table.get i := by
  rw [applyWithdrawal_table_get, hw.other h howner]
  exact if_neg fun hfree => howner hfree.1

theorem TornToJobs.session (hw : TornToJobs s p w) :
    w.sessions.get p = (s.sessions.get p).torn ∧ w.alloc.reportOwed = s.alloc.reportOwed.set p true := by
  rw [hw.frame]
  exact ⟨PerPort.get_set_same _ _ _, rfl⟩

/-- Without a running job of the port both marks are clear, and the report is made (R62, R174). -/
theorem TornToJobs.withdrawn_ended (hw : TornToJobs s p w) (h : Tearable s p) (hruns : ¬RunsJob s p) :
    (applyWithdrawal p w).sessions.get p =
        { (s.sessions.get p).torn with withdrawalPending := false, surfacesPending := false } ∧
      (applyWithdrawal p w).alloc.reportOwed = s.alloc.reportOwed.set p false := by
  obtain ⟨hsession, hreport⟩ := hw.session
  have hnone : ∀ i : Fin 32, (w.alloc.table.get i).state = .retiring → (w.alloc.table.get i).owner = p →
      (w.alloc.table.get i).pendingAbort = false := fun i _ howner => hw.none_flagged h hruns i howner
  have howed : w.alloc.reportOwed.get p = true := by rw [hreport, PerPort.get_set_same]
  rw [applyWithdrawal_session_done hnone fun _ => howed, applyWithdrawal_owed_done hnone howed, hsession, hreport,
    PerPort.set_set]
  exact ⟨rfl, rfl⟩

/-- With a running job of the port its surfaces are waited for (R62, R174). -/
theorem TornToJobs.withdrawn_waits (hw : TornToJobs s p w) (h : Tearable s p) (hruns : RunsJob s p) :
    (applyWithdrawal p w).sessions.get p = { (s.sessions.get p).torn with withdrawalPending := false } ∧
      (applyWithdrawal p w).alloc.reportOwed = s.alloc.reportOwed.set p true := by
  obtain ⟨hsession, hreport⟩ := hw.session
  obtain ⟨i, hret, howner, hflag⟩ := hw.some_flagged h hruns
  rw [applyWithdrawal_session_waits hret howner hflag, applyWithdrawal_owed_waits hret howner hflag, hsession, hreport]
  exact ⟨rfl, rfl⟩

end

/-! ### The teardown while timing is stopped (R45, R173, R174) -/

theorem teardown_allocLaw {p : Port} {s : State} (h : AllocLaw s.alloc) : AllocLaw (teardown p s).alloc := by
  have hmoves : Moves (fun q => q = p) s (teardown p s) := (Move.discard _ p).moves.trans (teardown_moves (p := p) (D := fun q => q = p) rfl s)
  exact moves_keep (P := fun t => AllocLaw t.alloc) (fun hm ht => hm.allocLaw ht) hmoves h

/-- The charge of a port follows its surfaces (R53). -/
theorem AllocLaw.charge_eq {a a' : Allocator} (h : AllocLaw a) (h' : AllocLaw a') {q : Port}
    (hsame : ∀ i : Fin 32, (a'.table.get i).chargeFor q = (a.table.get i).chargeFor q) : a'.charge.get q = a.charge.get q := by
  rw [h.charges q, h'.charges q, vector_toList_eq, vector_toList_eq, List.map_map, List.map_map]
  exact congrArg List.sum (List.map_congr_left fun i _ => hsame i)

/-- The teardown while timing is stopped: the withdrawal is applied within the event. -/
theorem tornDown_of_stopped {s : State} {p : Port} (h : Tearable s p) (hrun : s.timing.run = .stopped) :
    TornDownStopped s p (teardown p s) := by
  have htorn := tornToJobs_torn h
  obtain ⟨w, hw⟩ : ∃ w, tornToJobs p s = w := ⟨_, rfl⟩
  rw [hw] at htorn
  have hheld : ∀ e ∈ s.layout.queue, e.held = true := h.held.resolve_left fun hr => by rw [hrun] at hr; cases hr
  have hwframe := htorn.frame
  obtain ⟨x, hx⟩ : ∃ x, applyWithdrawal p w = x := ⟨_, rfl⟩
  have happend : appendWithdrawal p w = x := by
    rw [← hx]
    refine appendWithdrawal_stopped (by rw [hwframe]; exact hrun) fun e he => ?_
    rw [hwframe] at he
    exact hheld e (List.mem_filter.1 he).1
  have hxframe := applyWithdrawal_frame p w
  have hpal := applyWithdrawal_pal p w
  have htable := applyWithdrawal_table_get p w
  obtain ⟨hquota, hout⟩ := applyWithdrawal_quota p w
  have hothers : ∀ q, q ≠ p → x.sessions.get q = s.sessions.get q := fun q hq => by
    rw [← hx, applyWithdrawal_sessions_ne w hq, hwframe]
    exact PerPort.get_set_ne _ _ hq
  rw [hx] at hxframe hpal htable hquota hout
  have hlaw := teardown_allocLaw (p := p) h.alloc
  obtain ⟨y, hy⟩ : ∃ y, x.sessions.get p = y := ⟨_, rfl⟩
  have hsessions : x.sessions = s.sessions.set p y := PerPort.ext_get fun q => by
    rw [PerPort.get_set]
    split
    case isTrue hq => rw [hq, hy]
    case isFalse hq => exact hothers q hq
  have hvframe : dropCursor p x =
      { tornToLayout p s with
        engine := engineTornDown s p
        alloc := x.alloc
        sessions := s.sessions.set p y
        layout :=
          { (tornToLayout p s).layout with
            active := { s.layout.active with bands := s.layout.active.bands.filter fun b => decide (b.key.owner ≠ p) } }
        fresh := { s.fresh with records := s.fresh.records.filter fun r => decide (r.key.owner ≠ p) }
        pal :=
          { s.pal with records := s.pal.records.set p { grant := none, cursor := none, unpublished := false } } } := by
    have hwpal : w.pal = s.pal := by rw [hwframe]; rfl
    have hpals : (dropCursor p x).pal =
        { s.pal with records := s.pal.records.set p { grant := none, cursor := none, unpublished := false } } := by
      rw [dropCursor, State.setPalRecord_pal, hpal, hwpal]
      simp only [PerPort.set_set, PerPort.get_set_same]
    obtain ⟨a, ha⟩ : ∃ a, x.alloc = a := ⟨_, rfl⟩
    obtain ⟨v, hv⟩ : ∃ v, dropCursor p x = v := ⟨_, rfl⟩
    have hvx : v = { x with pal := v.pal } := by rw [← hv]; rfl
    rw [hv] at hpals ⊢
    rw [hpals, hxframe, hsessions, ha, hwframe] at hvx
    rw [hvx, ha]
    rfl
  obtain ⟨v, hv⟩ : ∃ v, dropCursor p x = v := ⟨_, rfl⟩
  rw [hv] at hvframe
  have hgone := voteGone_changeVote (s := s) (v := v) (p := p) (by rw [hvframe]; rfl) (by rw [hvframe]; rfl)
  obtain ⟨u, hu⟩ : ∃ u, changeVote p none v = u := ⟨_, rfl⟩
  rw [hu] at hgone
  obtain ⟨huframe, -, hkept, htold⟩ := hgone
  have hdark : demand s = false := h.dark hrun
  have hafter : demand { s with power := { s.power with votes := s.power.votes.set p none } } = false :=
    Bool.eq_false_iff.2 fun hyes => by
      rw [demand_of_withdrawn hyes] at hdark
      cases hdark
  have hpower : u.power = { s.power with votes := s.power.votes.set p none } := by
    rw [huframe, hdark, hafter]
    rfl
  have htiming : u.timing = s.timing := hkept fun hstop => by
    have hdemand := hstop.2.2.1
    rw [hdark] at hdemand
    cases hdemand
  have hnotices : u.notices = s.notices := PerPort.ext_get fun q => by
    rw [htold q, if_neg fun hchange => hchange.2 (by rw [hpower]), hvframe]
    rfl
  have hblocks : u =
      { v with
        power := { s.power with votes := s.power.votes.set p none }
        timing := s.timing, notices := s.notices, draws := u.draws } := by
    rw [hpower.symm, htiming.symm, hnotices.symm, huframe]
  have ht : teardown p s =
      { u.setNotices p NoticeQueue.cleared with sessions := s.sessions.set p (settleSession y) } := by
    rw [teardown_eq, hw, happend, hv, hu]
    refine settleSessions_set (p := p) (x := y) h.settled ?_
    rw [State.setNotices_sessions, hblocks, hvframe]
  have halloc : (teardown p s).alloc = x.alloc := by
    rw [ht, State.setNotices_alloc, hblocks, hvframe]
  rw [halloc] at hlaw
  have hsession : (teardown p s).sessions = s.sessions.set p (settleSession y) := by rw [ht]
  have hnamed := fun i => htorn.withdrawn_named (i := i) h
  have hunnamed := fun i => htorn.withdrawn_unnamed (i := i) h
  have hother := fun i => htorn.withdrawn_other (i := i) h
  have howners := fun i => htorn.withdrawn_owner (i := i)
  rw [hx] at hnamed hunnamed hother howners
  have hcharges : ∀ q, q ≠ p → x.alloc.charge.get q = s.alloc.charge.get q := fun q hq => by
    refine h.alloc.charge_eq hlaw fun i => ?_
    by_cases hi : (s.alloc.table.get i).owner = p
    · have hne : (s.alloc.table.get i).owner ≠ q := fun hqi => hq (hqi.symm.trans hi)
      rw [SurfEntry.chargeFor, SurfEntry.chargeFor, if_neg fun hc => hne ((howners i).symm.trans hc.2), if_neg fun hc => hne hc.2]
    · rw [hother i hi]
  constructor
  case ended =>
    intro hruns
    obtain ⟨hdone, howed⟩ := htorn.withdrawn_ended h hruns
    rw [hx] at hdone howed
    rw [hy] at hdone
    refine ⟨?_, ?_, by rw [halloc, howed]⟩
    · rw [hsession, hdone]
      exact congrArg (s.sessions.set p) ((if_pos ⟨rfl, rfl, rfl⟩).trans rfl)
    · rw [halloc]
      refine PerPort.ext_get fun q => ?_
      rw [PerPort.get_set]
      split
      case isTrue hq =>
        subst hq
        refine hlaw.charge_eq_zero fun e he hused hown => ?_
        rw [vector_toList_eq] at he
        obtain ⟨i, -, rfl⟩ := List.mem_map.1 he
        rw [hunnamed i ((howners i).symm.trans hown) fun j hj hjo hstate _ => hruns ⟨j, hj, hjo, hstate⟩] at hused
        exact hused rfl
      case isFalse hq => exact hcharges q hq
  case waits =>
    intro hruns
    obtain ⟨hwait, howed⟩ := htorn.withdrawn_waits h hruns
    rw [hx] at hwait howed
    rw [hy] at hwait
    refine ⟨?_, by rw [halloc, howed]⟩
    rw [hsession, hwait]
    exact congrArg (s.sessions.set p) (atEventEnd_marked (.inr rfl))
  case named =>
    rw [halloc]
    exact hnamed
  case unnamed =>
    rw [halloc]
    exact hunnamed
  case others =>
    rw [halloc]
    exact hother
  case blocks =>
    rw [halloc]
    refine ⟨hcharges, hquota.trans (by rw [hwframe]; rfl), hout.trans ?_⟩
    rw [hwframe]
    exact PerPort.set_set _ _ _ _
  case power =>
    rw [ht]
    exact hpower
  case timing =>
    rw [ht]
    exact htiming
  all_goals
    rw [ht, hblocks, hvframe]
    rfl

/-! ### The links (R69, R156, R157) -/

theorem teardown_links (p : Port) (s : State) : (teardown p s).links = (discardAccess (attentionPending s p) p s).links := by
  have hfirst : (teardownSurfaces p (s.setSession p (s.sessions.get p).torn)).links =
      (discardAccess (attentionPending s p) p s).links := by rw [teardownSurfaces_setSession]; rfl
  rw [teardown_eq, settleSessions_frame, State.setNotices_links, changeVote_links, dropCursor, State.setPalRecord_links,
    appendWithdrawal, applyIfStopped_links, State.setQueue_links, tornToJobs, teardownJobs_links]
  exact hfirst

theorem discardAccess_links_of_none {p : Port} {s : State} (h : ∀ a ∈ s.arb.ports, a.port ≠ p) (b : Bool) :
    (discardAccess b p s).links = s.links := by
  have hany : (s.arb.ports.any fun a => decide (a.port = p)) = false :=
    List.any_eq_false.2 fun a ha => by simpa using h a ha
  unfold discardAccess
  simp only [hany, Bool.false_eq_true, if_false]

theorem discardAccess_links_of_no_work {p : Port} {s : State} (h : (s.links.get p).work = none) (b : Bool) :
    (discardAccess b p s).links = s.links := by
  unfold discardAccess
  simp only [h, ite_self]

/-- The request whose access is discarded is answered NO_SESSION (R69). -/
theorem discardAccess_links_of_waiting {p : Port} {s : State} (hwaits : waitsForStore s p) (h : ∃ a ∈ s.arb.ports, a.port = p) :
    (discardAccess (attentionPending s p) p s).links = (Replied s p .noSession []).links := by
  obtain ⟨a, ha, hp⟩ := h
  have hany : (s.arb.ports.any fun a => decide (a.port = p)) = true := List.any_eq_true.2 ⟨a, ha, decide_eq_true hp⟩
  obtain ⟨x, hx⟩ : ∃ x, (s.links.get p).work = some x := by
    cases hwork : (s.links.get p).work with
    | none =>
      rw [waitsForStore, hwork] at hwaits
      cases hwaits
    | some x => exact ⟨x, rfl⟩
  rw [← fillReply_eq_replied]
  unfold discardAccess
  simp only [hany, hx, if_true]
  rfl

/-- The four causes of a teardown (R170 to R173), for what the teardown itself makes of a state, whatever its links and arbiter. -/
theorem teardown_by_each_cause {T : State → Port → State → Prop} {s : State} {p : Port} (hs : Lawful s)
    (hopen : (s.sessions.get p).state = .opened)
    (hteardown : ∀ links arb, T { s with links := links, arb := arb } p (teardown p { s with links := links, arb := arb }))
    (hfrom : ∀ {u t : State} {links : PerPort Link}, T { u with links := links } p t → T u p t)
    (hto : ∀ {t : State} {links : PerPort Link}, T s p t → T s p { t with links := links }) :
    (Admitted s p .closeSession [] →
      ∃ t, exec (.closeSession p) s = .next t ∧ T s p t ∧ t.links = (Replied s p .ok [(s.sessions.get p).epoch]).links) ∧
    (∀ pl, pl.length ≤ 261 → (s.links.get p).rstLow = false → (s.links.get p).csLow = false →
      ∃ t, exec (.portReset p pl) s = .next t ∧ T (LinkReset s p) p t ∧ t.links = (resetByFrame s p pl).links) ∧
    ((s.links.get p).rstLow = false →
      ∃ t, exec (.rstnFall p) s = .next t ∧ T (LinkReset s p) p t ∧ t.links = (resetByPin s p).links) ∧
    (∀ u, u ≠ p → Admitted s u .supEvictSession [BitVec.ofNat 8 p.toNat] →
      ∃ t, exec (.supEvictSession u) s = .next t ∧ T s p t ∧ EvictedLink s p t) := by
  have hreset : ∀ links : PerPort Link,
      ∃ t, portResetAt p { s with links := links } = t ∧ T (LinkReset s p) p t ∧
        t.links = (LinkReset { s with links := links } p).links := fun links => by
    have hsame : portResetAt p { s with links := links } = teardown p (LinkReset { s with links := links } p) := by
      rw [← resetLink_eq]
      have hkept : (resetLink p { s with links := links }).sessions = s.sessions := by rw [resetLink_frame]
      simp only [portResetAt, hkept, hopen, if_true]
    refine ⟨_, hsame, hfrom (u := LinkReset s p) (hteardown _ _), ?_⟩
    rw [teardown_links]
    exact discardAccess_links_of_no_work (congrArg Link.work (PerPort.get_set_same _ _ _)) _
  refine ⟨fun hadm => ?close, fun pl hpl hrst hcs => ?frame, fun hrst => ?pin, fun u hu hadm => ?evict⟩
  case close =>
    have hwork : (s.links.get p).work = some { kind := .closeSession, epoch := (s.sessions.get p).epoch, payload := [], posted := false } :=
      hadm.1
    have hnone : ∀ a ∈ s.arb.ports, a.port ≠ p := fun a ha hp => by
      have hwaits := (hs.link.waiting a ha).1
      rw [waitsForStore, hp, hwork] at hwaits
      cases hwaits
    have hexec : exec (.closeSession p) s = .next (teardown p (fillReply p .ok [(s.sessions.get p).epoch] s)) :=
      exec_of_admitted (closeSession p) rfl hadm rfl
    rw [fillReply_eq_replied] at hexec
    refine ⟨_, hexec, hfrom (u := s) (hteardown _ _), ?_⟩
    rw [teardown_links]
    exact discardAccess_links_of_none (s := Replied s p .ok [(s.sessions.get p).epoch]) hnone _
  case frame =>
    obtain ⟨t, ht, htorn, hlinks⟩ := hreset (shiftZeros p (6 + pl.length) s).links
    exact ⟨t, (exec_portReset hpl hrst hcs).trans (congrArg Host.Outcome.next ht), htorn, hlinks⟩
  case pin =>
    obtain ⟨t, ht, htorn, hlinks⟩ := hreset (s.setLink p { s.links.get p with rstLow := true }).links
    exact ⟨t, (exec_rstnFall hrst).trans (congrArg Host.Outcome.next ht), htorn, hlinks⟩
  case evict =>
    have hsupv : u = s.supv := hadm.2.2 (by decide)
    have hport : Port.ofNat? (num8 [BitVec.ofNat 8 p.toNat] 0) = some p := by cases p <;> rfl
    have hne : p ≠ s.supv := fun hp => hu (hsupv.trans hp.symm)
    have hexec : exec (.supEvictSession u) s = .next (supEvictSession u [BitVec.ofNat 8 p.toNat] s) :=
      exec_of_admitted (supEvictSession u) rfl hadm rfl
    simp only [supEvictSession, hport, if_neg hne, hopen, fillReply_eq_replied] at hexec
    refine ⟨_, hexec, hto (hteardown s.links s.arb), fun hwaits haccess => ?_, fun hnone => ?_⟩
    · refine (PerPort.get_set_ne _ _ hu.symm).trans ?_
      rw [teardown_links, discardAccess_links_of_waiting hwaits haccess]
    · refine (PerPort.get_set_ne _ _ hu.symm).trans ?_
      rw [teardown_links, discardAccess_links_of_none hnone]

/-- Settles O14: the teardown reads no link, so the four causes differ in what they make of the port's link alone. -/
theorem teardownWhileRunning : Obligations.TeardownWhileRunning := by
  unfold Obligations.TeardownWhileRunning
  intro s p hs hrun hopen
  exact teardown_by_each_cause (T := TornDown) hs hopen
    (fun links arb => tornDown_of_running (hs.tearable hopen links arb) hrun)
    (fun ⟨h1, h2, h3, h4, h5, h6, h7, h8, h9, h10, h11, h12, h13, h14, h15⟩ =>
      ⟨h1, h2, h3, h4, h5, h6, h7, h8, h9, h10, h11, h12, h13, h14, h15⟩)
    fun ⟨h1, h2, h3, h4, h5, h6, h7, h8, h9, h10, h11, h12, h13, h14, h15⟩ =>
      ⟨h1, h2, h3, h4, h5, h6, h7, h8, h9, h10, h11, h12, h13, h14, h15⟩

/-- Settles O15: the same four causes, with the withdrawal applied within the teardown. -/
theorem teardownWhileStopped : Obligations.TeardownWhileStopped := by
  unfold Obligations.TeardownWhileStopped
  intro s p hs hrun hopen
  exact teardown_by_each_cause (T := TornDownStopped) hs hopen
    (fun links arb => tornDown_of_stopped (hs.tearable hopen links arb) hrun)
    (fun ⟨h1, h2, h3, h4, h5, h6, h7, h8, h9, h10, h11, h12, h13, h14, h15, h16⟩ =>
      ⟨h1, h2, h3, h4, h5, h6, h7, h8, h9, h10, h11, h12, h13, h14, h15, h16⟩)
    fun ⟨h1, h2, h3, h4, h5, h6, h7, h8, h9, h10, h11, h12, h13, h14, h15, h16⟩ =>
      ⟨h1, h2, h3, h4, h5, h6, h7, h8, h9, h10, h11, h12, h13, h14, h15, h16⟩

end Sys2Proof.Machine
end


section
/-! PROOFS. DEVICE_RESET: every session ends and every setting but the panel timing is cleared (R71, R106, R146, R177). -/

namespace Sys2Proof.Machine

/-! ### The discarded accesses (R69, R71) -/

theorem discardFold_frame : ∀ (qs : List Port) (s : State),
    qs.foldl (fun t q => discardAccess false q t) s =
      { s with
        links := (qs.foldl (fun t q => discardAccess false q t) s).links
        arb := { s.arb with ports := (qs.foldl (fun t q => discardAccess false q t) s).arb.ports } }
  | [], _ => rfl
  | q :: qs, s => by
    have hone := discardAccess_frame false q s
    have hrest := discardFold_frame qs (discardAccess false q s)
    rw [List.foldl_cons]
    obtain ⟨t, ht⟩ : ∃ t, qs.foldl (fun t q => discardAccess false q t) (discardAccess false q s) = t := ⟨_, rfl⟩
    rw [ht] at hrest ⊢
    rw [hone] at hrest
    exact hrest

theorem discardAll_frame (s : State) :
    discardAll s = { s with links := (discardAll s).links, arb := { s.arb with ports := [] } } := by
  have hframe : discardAll s =
      { s with links := (discardAll s).links, arb := { s.arb with ports := (discardAll s).arb.ports } } :=
    discardFold_frame Port.all s
  have hports := discardAll_ports s
  obtain ⟨d, hd⟩ : ∃ d, discardAll s = d := ⟨_, rfl⟩
  rw [hd] at hframe hports ⊢
  rwa [hports] at hframe

theorem discardFold_link_of_not_mem {q : Port} : ∀ {qs : List Port} {s : State}, q ∉ qs →
    (qs.foldl (fun t q => discardAccess false q t) s).links.get q = s.links.get q
  | [], _, _ => rfl
  | r :: qs, s, h => by
    obtain ⟨hne, hrest⟩ := List.ne_and_not_mem_of_not_mem_cons h
    exact (discardFold_link_of_not_mem (s := discardAccess false r s) hrest).trans (discardAccess_links_ne _ _ hne)

/-- A link whose request is answered NO_SESSION, the attention-pending flag at 0 (R69, R164; log 8). -/
def Link.endedUnheard (l : Link) : Link :=
  { l with
    state := .replyReady
    slot := some { status := .noSession, seq := l.execSeq, overrun := l.overrun, attention := false, payload := [] }
    overrun := false
    work := none }

theorem discardAccess_link_ended {q : Port} {s : State} (hwaits : waitsForStore s q) (h : ∃ a ∈ s.arb.ports, a.port = q) :
    (discardAccess false q s).links.get q = (s.links.get q).endedUnheard := by
  obtain ⟨a, ha, hq⟩ := h
  have hany : (s.arb.ports.any fun a => decide (a.port = q)) = true := List.any_eq_true.2 ⟨a, ha, decide_eq_true hq⟩
  obtain ⟨x, hx⟩ : ∃ x, (s.links.get q).work = some x := by
    cases hwork : (s.links.get q).work with
    | none =>
      rw [waitsForStore, hwork] at hwaits
      cases hwaits
    | some x => exact ⟨x, rfl⟩
  unfold discardAccess
  simp only [hany, hx, if_true]
  exact PerPort.get_set_same _ _ _

/-- Each port's access is discarded once, at the port's turn. -/
theorem discardFold_link_ended {q : Port} {qs : List Port} : ∀ {s : State}, qs.Nodup → q ∈ qs → waitsForStore s q →
    (∃ a ∈ s.arb.ports, a.port = q) →
    (qs.foldl (fun t q => discardAccess false q t) s).links.get q = (s.links.get q).endedUnheard := by
  induction qs with
  | nil => exact fun _ hmem => absurd hmem List.not_mem_nil
  | cons r qs ih =>
    intro s hnodup hmem hwaits haccess
    obtain ⟨hr, hnodup⟩ := List.nodup_cons.1 hnodup
    rw [List.foldl_cons]
    by_cases hqr : q = r
    · subst hqr
      rw [discardFold_link_of_not_mem hr, discardAccess_link_ended hwaits haccess]
    · have hlink : (discardAccess false r s).links.get q = s.links.get q := discardAccess_links_ne _ _ hqr
      obtain ⟨a, ha, haq⟩ := haccess
      have hstays : a ∈ (discardAccess false r s).arb.ports := by
        rw [discardAccess_ports]
        exact List.mem_filter.2 ⟨ha, decide_eq_true (by rw [haq]; exact hqr)⟩
      rw [ih hnodup ((List.mem_cons.1 hmem).resolve_left hqr) (by rw [waitsForStore, hlink]; exact hwaits)
        ⟨a, hstays, haq⟩, hlink]

theorem discardAll_link_ended {q : Port} {s : State} (hwaits : waitsForStore s q) (haccess : ∃ a ∈ s.arb.ports, a.port = q) :
    (discardAll s).links.get q = (s.links.get q).endedUnheard :=
  discardFold_link_ended (by decide) (Port.mem_all q) hwaits haccess

/-! ### The reset of every block (R177) -/

/-- The state after DEVICE_RESET at every block but the sequencer. -/
def blocksReset (s : State) : State :=
  resetSessions (resetPalette (resetEngine (resetAllocator (resetLayout (discardAll s)))))

theorem blocksReset_eq (s : State) :
    blocksReset s =
      { s with
        links := (discardAll s).links
        sessions := (resetSessions s).sessions
        notices := PerPort.every NoticeQueue.cleared
        layout := (resetLayout s).layout
        fresh := { s.fresh with records := [] }
        alloc := (resetAllocator s).alloc
        arb :=
          { turn := .ports, lineFetch := s.arb.lineFetch, engineRow := false, ports := [], busy := orphanRow s.arb.busy }
        pal := (resetPalette s).pal
        engine := CopyEngine.powerOn } := by
  have hd := discardAll_frame s
  obtain ⟨d, hdd⟩ : ∃ d, discardAll s = d := ⟨_, rfl⟩
  rw [blocksReset]
  rw [hdd] at hd ⊢
  rw [hd]
  rfl

/-- What DEVICE_RESET makes of the sequencer (R146). -/
def powerAfterReset (s : State) : PowerSequencer :=
  (powerDeviceReset s).state.power

theorem powerAfterReset_eq (s : State) :
    powerAfterReset s =
      { state :=
          if s.power.state = .lit ∨
              ((s.power.state = .logicLead ∨ s.power.state = .logicHeld) ∧ s.power.stopRequested = false) then
            .logicTail
          else s.power.state
        votes := PerPort.every none, inhibit := false, lead := 2, tail := 60
        frameCount :=
          if s.power.state = .lit ∨
              ((s.power.state = .logicLead ∨ s.power.state = .logicHeld) ∧ s.power.stopRequested = false) then 0
          else s.power.frameCount
        target :=
          if s.power.state = .lit ∨
              ((s.power.state = .logicLead ∨ s.power.state = .logicHeld) ∧ s.power.stopRequested = false) then 60
          else s.power.target
        stopRequested := s.power.stopRequested } := by
  obtain ⟨-, htails, hkept⟩ := powerDeviceReset_step s
  rw [powerAfterReset]
  by_cases h : TailsAtReset s
  · rw [htails h]
    unfold TailsAtReset at h
    simp only [if_pos h]
    rfl
  · rw [hkept h]
    unfold TailsAtReset at h
    simp only [if_neg h]
    rfl

/-- A state in which no session is OPEN takes no notice. -/
theorem deliverAny_notices_closed {s : State} (h : ∀ q, (s.sessions.get q).state ≠ .opened) (xs ys zs : List Posting) :
    (deliverAny xs ys zs s).notices = s.notices := by
  have htold : ToldMerged s (deliverAny xs ys zs s) [xs, ys, zs] := toldMerged_of_deliverAny rfl (fun _ => Iff.rfl) rfl
  refine PerPort.ext_get fun q => ?_
  obtain ⟨ns, -, -, hget⟩ := htold q
  rw [hget, if_neg (h q)]

theorem blocksReset_closed (s : State) (q : Port) : ((blocksReset s).sessions.get q).state ≠ .opened := by
  rw [blocksReset, resetSessions, PerPort.get_map]
  exact fun h => by cases h

theorem resetAll_frame (s : State) :
    resetAll s = { blocksReset s with power := powerAfterReset (blocksReset s), draws := (resetAll s).draws } := by
  obtain ⟨u, hu⟩ : ∃ u, blocksReset s = u := ⟨_, rfl⟩
  have hclosed : ∀ q, (u.sessions.get q).state ≠ .opened := by
    rw [← hu]
    exact blocksReset_closed s
  obtain ⟨hstart, htails, hkept⟩ := powerDeviceReset_step u
  have hstate : (powerDeviceReset u).state = { u with power := powerAfterReset u } := by
    rw [powerAfterReset]
    by_cases h : TailsAtReset u
    · rw [htails h]
    · rw [hkept h]
  have hall : resetAll s = deliverAny (powerDeviceReset u).posts [] [] { u with power := powerAfterReset u } := by
    rw [resetAll, ← hstate, ← hu]
    exact finishPower_quiet (.inl (by rw [← hu] at hstart; exact hstart)) []
  have hnotices := deliverAny_notices_closed (s := { u with power := powerAfterReset u }) hclosed (powerDeviceReset u).posts [] []
  have hframe := deliverAny_frame (powerDeviceReset u).posts [] [] { u with power := powerAfterReset u }
  rw [← hall] at hnotices hframe
  rw [hnotices] at hframe
  rw [hu]
  obtain ⟨r, hr⟩ : ∃ r, resetAll s = r := ⟨_, rfl⟩
  rw [hr] at hframe ⊢
  rw [hframe]

theorem clearEntry_get (t : Vector SurfEntry 32) (i : Fin 32) : (t.map clearEntry).get i = clearEntry (t.get i) := by
  simp only [Vector.get_eq_getElem, Vector.getElem_map]

/-- Settles O18: the reset of each block, the sequencer's answer, and the reply that survives. -/
theorem deviceResetClearsAllButTheTiming : Obligations.DeviceResetClearsAllButTheTiming := by
  unfold Obligations.DeviceResetClearsAllButTheTiming
  intro s p hlaw hadm
  have hexec : exec (.deviceReset p) s = .next (deviceReset p [] s) := exec_of_admitted (deviceReset p) rfl hadm rfl
  rw [deviceReset_eq, fillReply_eq_replied] at hexec
  have hwork : (s.links.get p).work =
      some { kind := .deviceReset, epoch := (s.sessions.get p).epoch, payload := [], posted := false } := hadm.1
  have hwaits : ¬waitsForStore s p := fun h => by
    rw [waitsForStore, hwork] at h
    cases h
  have hframe := resetAll_frame s
  have hpower := powerAfterReset_eq (blocksReset s)
  have hlinkp := discardAll_link (s := s) (hlaw.none_of_not_waits hwaits).1
  have hlinks : ∀ q, q ≠ p → (Replied (resetAll s) p .ok []).links.get q = (discardAll s).links.get q := fun q hq => by
    rw [← resetAll_links]
    exact PerPort.get_set_ne _ _ hq
  have hattention : (resetAll s).notices.get p = NoticeQueue.cleared := by
    rw [hframe]
    exact PerPort.get_every _ p
  have hlinkr : (resetAll s).links.get p = s.links.get p := by rw [resetAll_links, hlinkp]
  have hslot : ((Replied (resetAll s) p .ok []).links.get p).state = .replyReady ∧
      ((Replied (resetAll s) p .ok []).links.get p).slot =
        some { status := .ok, seq := (s.links.get p).execSeq, overrun := (s.links.get p).overrun, attention := false,
               payload := [] } := by
    rw [Replied, PerPort.get_set_same, hattention, hlinkr]
    exact ⟨rfl, rfl⟩
  have hb := blocksReset_eq s
  obtain ⟨b, hbr⟩ : ∃ b, blocksReset s = b := ⟨_, rfl⟩
  rw [hbr] at hframe hpower hb
  have hpowers : b.power = s.power := by rw [hb]
  rw [hpowers] at hpower
  obtain ⟨u, hu⟩ : ∃ u, resetAll s = u := ⟨_, rfl⟩
  rw [hu] at hframe hexec hlinks hslot
  obtain ⟨hready, hreply⟩ := hslot
  have hother : Replied u p .ok [] = { u with links := (Replied u p .ok []).links } := rfl
  refine ⟨_, hexec, ?_, ?_, fun q => ?_, fun q => ?_, ?_, ?_, fun q => ?_, ?_, fun i => ?_, ?_, fun q => ?_, ?_, ?_, ?_, ?_,
    fun q => ?_, ?_, ?_, ?_, ?_, hready, hreply, fun q hq hnone => ?_, fun q hq haccess hwaiting => ?_⟩
  case refine_20 => exact (congrArg State.power hframe).trans hpower
  case refine_21 => rw [hlinks q hq, discardAll_link hnone]
  case refine_22 => exact (hlinks q hq).trans (discardAll_link_ended hwaiting haccess)
  all_goals rw [hother, hframe, hb]
  case refine_3 => exact PerPort.get_map _ _ _
  case refine_4 => exact PerPort.get_every _ _
  case refine_7 => exact ⟨PerPort.get_every _ _, PerPort.get_every _ _⟩
  case refine_9 => exact clearEntry_get _ _
  case refine_11 => exact ⟨PerPort.get_every _ _, PerPort.get_every _ _, PerPort.get_every _ _, PerPort.get_every _ _⟩
  case refine_13 =>
    show ({ turn := .ports, lineFetch := s.arb.lineFetch, engineRow := false, ports := [], busy := orphanRow s.arb.busy } : Arbiter) = _
    cases s.arb.busy with
    | none => rfl
    | some x => cases x <;> rfl
  case refine_16 => exact PerPort.get_every _ _
  all_goals rfl

end Sys2Proof.Machine
end


section
/-! PROOFS. The laws do not bound the edits of an entry that waits in the submit queue, and RECALL moves them into the staging area, which
holds eight at most (R22, R25): the laws are not kept by every step (O59). -/

namespace Sys2Proof.Machine

/-- An entry of P1 with nine edits, one more than a staging area holds (R22). -/
def overlongEntry : Transaction :=
  { port := .p1, tag := 1#8, waitJobs := false, edits := List.replicate 9 (.bandDrop 0), awaited := [] }

/-- The panel is lit, in the blanking of a frame; P1's session is OPEN, its nine edits wait for the VBLANK_START, and its RECALL is in
work. -/
def overlongState : State :=
  { State.reset with
    links :=
      State.reset.links.set .p1
        { State.reset.links.get .p1 with
          state := .executing, work := some { kind := .recall, epoch := 1#8, payload := [], posted := false } }
    sessions :=
      State.reset.sessions.set .p1
        { state := .opened, epoch := 1#8, label := some ⟨1#8, 2#8, 3#8, 4#8⟩, withdrawalPending := false,
          surfacesPending := false }
    layout :=
      { State.reset.layout with
        queue := [.transaction overlongEntry], record := State.reset.layout.record.set .p1 .queued }
    timing := { State.reset.timing with run := .running, period := .nonDisplay, line := State.reset.timing.active.vdl }
    power := { State.reset.power with state := .lit, votes := State.reset.power.votes.set .p1 (some .off) }
    pending := [.recall .p1] }

theorem lawful_overlongState : Lawful overlongState := lawful_of_check (by decide +kernel)

theorem admitted_overlongState : Admitted { overlongState with pending := [] } .p1 .recall [] :=
  ⟨rfl, rfl, fun h => absurd h (by decide)⟩

/-- A RECALL moves the edits of the port's entry into its staging area, whatever their number (R25). -/
theorem exec_recall_staging {s : State} {p : Port} {x : Transaction} (h : Admitted s p .recall [])
    (hrecord : s.layout.record.get p = .queued) (hfound : findTransaction p s.layout.queue = some x) :
    ∃ t, exec (.recall p) s = .next t ∧ t.layout.staging.get p = x.edits := by
  refine ⟨recallTransaction p [] s, exec_of_admitted (recallTransaction p) rfl h rfl, ?_⟩
  simp only [recallTransaction, hrecord, hfound]
  exact PerPort.get_set_same _ _ _

/-- Refutes O59: the step of `overlongState` is a RECALL, which leaves nine staged edits. -/
theorem not_everyStepKeepsTheLaws : ¬Obligations.EveryStepKeepsTheLaws := by
  unfold Obligations.EveryStepKeepsTheLaws
  intro h
  obtain ⟨t, ht, hstaging⟩ := exec_recall_staging admitted_overlongState rfl rfl
  have hstaged := ((h overlongState t lawful_overlongState ht).queue.session .p1).staged
  rw [hstaging] at hstaged
  exact absurd hstaged (by decide)

end Sys2Proof.Machine
end
